-- ==== Sys2Proof/Word.lean ====
section
/-! DEFINITION. The words of the model: 64-bit words that hold XLEN-bit or DXLEN-bit values, the two register widths
the spec names (32 and 64, spec/00_scope.md R8 and spec/92_eei_decisions.md D2), and the operand fields of the CSR
instruction format (spec/30_encoding.md R230). -/

namespace Sys2Proof

/-- A value of up to 64 bits. With an effective width of 32 the upper half of a value read is 0. -/
abbrev Word := BitVec 64

/-- A general-register number of the host hart, 0 to 31 (spec/30_encoding.md R230). -/
abbrev Reg := BitVec 5

/-- A 12-bit CSR address (spec/20_memory.md R201, spec/30_encoding.md R230). -/
abbrev CsrAddr := BitVec 12

/-- A register width: the effective XLEN or the storage width DXLEN (spec/10_state.md R24, R25). -/
inductive Xlen where
  | x32
  | x64
  deriving DecidableEq, Repr

/-- The number of bits of a register width. -/
def Xlen.bits : Xlen → Nat
  | .x32 => 32
  | .x64 => 64

/-- The low XLEN bits of a value, zero-extended. -/
def Xlen.trunc : Xlen → Word → Word
  | .x32, v => (v.extractLsb' 0 32).setWidth 64
  | .x64, v => v

/-- The value whose low XLEN bits are all 1. -/
def Xlen.allOnes : Xlen → Word
  | .x32 => 0xffffffff#64
  | .x64 => 0xffffffffffffffff#64

/-- The value whose low `n` bits are 1. -/
def lowOnes (n : Nat) : Word := BitVec.ofNat 64 (2 ^ n - 1)

end Sys2Proof
end

