-- ==== Sys2Proof/Syntax.lean ====
section
/-! DEFINITION. The instructions: one constructor for each row of spec/opcode_table.json. The Trigger Module defines no
instruction of its own; the six CSR instructions are the only ones that touch its state (spec/30_encoding.md R230, R236).
Every operand has exactly the width of its field, so every term is an instruction that has an encoding. -/

namespace Sys2Proof

/-- The six CSR instructions, operands in the order of the assembler syntax (spec/30_encoding.md R242). -/
inductive Instr where
  /-- `csrrw rd, csr, rs1` (spec/40_csr_access.md R301). -/
  | csrrw (rd : Reg) (csr : CsrAddr) (rs1 : Reg)
  /-- `csrrs rd, csr, rs1` (R302). -/
  | csrrs (rd : Reg) (csr : CsrAddr) (rs1 : Reg)
  /-- `csrrc rd, csr, rs1` (R303). -/
  | csrrc (rd : Reg) (csr : CsrAddr) (rs1 : Reg)
  /-- `csrrwi rd, csr, uimm` (R304). -/
  | csrrwi (rd : Reg) (csr : CsrAddr) (uimm : BitVec 5)
  /-- `csrrsi rd, csr, uimm` (R305). -/
  | csrrsi (rd : Reg) (csr : CsrAddr) (uimm : BitVec 5)
  /-- `csrrci rd, csr, uimm` (R306). -/
  | csrrci (rd : Reg) (csr : CsrAddr) (uimm : BitVec 5)
  deriving DecidableEq, Repr

/-- The CSR address an instruction names. -/
def Instr.csr : Instr → CsrAddr
  | .csrrw _ a _ => a
  | .csrrs _ a _ => a
  | .csrrc _ a _ => a
  | .csrrwi _ a _ => a
  | .csrrsi _ a _ => a
  | .csrrci _ a _ => a

/-- The destination register of an instruction. -/
def Instr.rd : Instr → Reg
  | .csrrw rd _ _ => rd
  | .csrrs rd _ _ => rd
  | .csrrc rd _ _ => rd
  | .csrrwi rd _ _ => rd
  | .csrrsi rd _ _ => rd
  | .csrrci rd _ _ => rd

end Sys2Proof
end

