-- ==== Sys2Proof/Decode.lean ====
section
/-! DEFINITION. Decoding and encoding of the CSR instructions, from spec/30_encoding.md R230 to R233. An instruction is
given to the decoder as one number, first parcel in the low bits, because that is how the spec's hardware is shown it
(spec/20_memory.md R208, spec/92_eei_decisions.md D3): no byte order enters. -/

namespace Sys2Proof

/-- Why a word is none of the six instructions. The hart then runs it as an instruction of its own, which the Trigger
Module knows only by its events (spec/49_host_instruction_classes.md R546). -/
inductive DecodeError where
  /-- The instruction is not 32 bits long: the six have no other form (R230, R240). -/
  | notThirtyTwoBits
  /-- Bits 6:0 are not 1110011 (R230). -/
  | notSystemOpcode
  /-- `funct3` is 000 or 100: no CSR instruction (R232). -/
  | notCsrFunct3
  deriving DecidableEq, Repr

/-- The six instructions by `opcode` and `funct3` (R230, R232). -/
def decodeWord (w : BitVec 32) : Except DecodeError Instr :=
  let csr := w.extractLsb' 20 12
  let rs1 := w.extractLsb' 15 5
  let rd := w.extractLsb' 7 5
  if w.extractLsb' 0 7 = 0b1110011#7 then
    match (w.extractLsb' 12 3).toNat with
    | 1 => .ok (.csrrw rd csr rs1)
    | 2 => .ok (.csrrs rd csr rs1)
    | 3 => .ok (.csrrc rd csr rs1)
    | 5 => .ok (.csrrwi rd csr rs1)
    | 6 => .ok (.csrrsi rd csr rs1)
    | 7 => .ok (.csrrci rd csr rs1)
    | _ => .error .notCsrFunct3
  else .error .notSystemOpcode

/-- Decode an instruction of `ilen` bits given as a number of up to 128 bits (R240: the instruction lengths the spec
names go up to 128 bits; the six are 32 bits long). -/
def decode (insn : BitVec 128) (ilen : Nat) : Except DecodeError Instr :=
  if ilen = 32 then decodeWord (insn.extractLsb' 0 32) else .error .notThirtyTwoBits

/-- One CSR instruction's word: `csr`, `rs1` or `uimm`, `funct3`, `rd`, `opcode` from bit 31 down (R230). -/
def encodeFields (csr : CsrAddr) (src : BitVec 5) (funct3 : BitVec 3) (rd : Reg) : BitVec 32 :=
  csr ++ src ++ funct3 ++ rd ++ 0b1110011#7

/-- The word of an instruction (R230, R232, R233). -/
def encode : Instr → BitVec 32
  | .csrrw rd csr rs1 => encodeFields csr rs1 0b001 rd
  | .csrrs rd csr rs1 => encodeFields csr rs1 0b010 rd
  | .csrrc rd csr rs1 => encodeFields csr rs1 0b011 rd
  | .csrrwi rd csr uimm => encodeFields csr uimm 0b101 rd
  | .csrrsi rd csr uimm => encodeFields csr uimm 0b110 rd
  | .csrrci rd csr uimm => encodeFields csr uimm 0b111 rd

/-- The instruction the decoder reads from `nbits` bits numbered as spec/opcode_table.json numbers them. -/
def decodeTableWord (nbits w : Nat) : Option Instr :=
  if w < 2 ^ nbits then
    match decode (BitVec.ofNat 128 w) nbits with
    | .ok i => some i
    | .error _ => none
  else none

end Sys2Proof
end

