-- ==== Sys2Proof/Config.lean ====
section
/-! DEFINITION. The configuration of an implementation (spec/00_scope.md R8) and the free values the spec leaves open
(spec/93_implementation_defined.md). Two kinds of thing stand here.

The CONFIGURATION RECORDS hold the parameters of R8. `Config` holds those of the hart and of the Trigger Module as a whole,
`TrigImpl` those R8 indexes by a trigger. Both are plain data and lie in State, so that a statement about every state is a
statement about every implementation. No step changes them.

The FREE VALUES are opaque constants with no body: nothing can be proved about what they are, so a theorem holds whatever
they are. `freeBit`, `freeNat` and `freeWord` are applied to the place that asks (`FreePoint`), to the counter `draws` of
State, and to an index, so that two questions never share an answer. The `warl…` functions and `legalizeTselect` are the
implementation's own choices among legal values (R280, R285, R297; U14, U16, U26). -/

namespace Sys2Proof

/-- The reentrancy protection of spec/60_exceptions.md R566 to R568. -/
inductive Reentrancy where
  /-- No protection: "should" leaves this open (R568, decision D11). -/
  | unprotected
  /-- Solution 1: gated by the interrupt enables (R566). -/
  | ieGating
  /-- Solution 2: `mte` and `mpte` of `tcontrol` (R567). -/
  | tcontrol
  deriving DecidableEq, Repr

/-- What happens when an action 0 and an action 1 trigger fire together (R558). -/
inductive BothActions where
  /-- Both take place, in an order the implementation chooses (U2). -/
  | both
  /-- The hart enters Debug Mode and ignores the breakpoint exception. -/
  | debugOnly
  deriving DecidableEq, Repr

/-- The `tval` of an mcontrol or mcontrol6 breakpoint (R553, U30). -/
inductive TvalPolicy where
  | zero
  | address
  deriving DecidableEq, Repr

/-- The compare values of a cache operation (spec/42_memory_access_triggers.md R386 to R388, U23). -/
inductive CacheopCompare where
  | range
  | blockBase
  | ea
  deriving DecidableEq, Repr

/-- What the compare value of an access at an invalid address is (spec/20_memory.md R205, R206, U17). -/
inductive InvalidAddrPolicy where
  | asIs
  | remap
  | inhibit
  deriving DecidableEq, Repr

/-- What a tmexttrigger does with a signal it may not fire on (spec/47_tmexttrigger.md R516, U22). -/
inductive ExtPending where
  | drop
  | hold
  deriving DecidableEq, Repr

/-- The point in time at which a trigger fires, as `{hit1, hit0}` names it
(spec/11_state_trigger_types.md R105). -/
inductive FireTime where
  | before
  | after
  | immediatelyAfter
  deriving DecidableEq, Repr

/-- When an mcontrol6 trigger fires (spec/44_mcontrol6.md R443): always at one time, or at a time drawn afresh for each
match, which covers every function `MC6_TIMING(i, e)`. -/
inductive Mc6Timing where
  | always (t : FireTime)
  | drawn
  deriving DecidableEq, Repr

/-- What a write to `tselect` of a value that selects no trigger stores (spec/40_csr_access.md R280, U14). -/
inductive SelectPolicy where
  /-- The value itself. -/
  | keep
  /-- One fixed value. -/
  | fixed (v : Word)
  /-- Whatever the free function `legalizeTselect` says. -/
  | free
  deriving DecidableEq, Repr

/-- The parameters R8 indexes by a trigger and a type: which codes the WARL fields of one view accept, and which of its
`hit` bits exist. -/
structure ViewImpl where
  /-- `ACTIONS[i][type]`. -/
  actions : List Nat
  /-- `SIZES[i][type]`; code 0 is supported in any case (R296). Types 2 and 6 only. -/
  sizes : List Nat := []
  /-- `MATCHES[i][type]`. Types 2 and 6 only. -/
  matchOps : List Nat := []
  /-- `HIT_IMPL[i][type]`: the bit `hit`, or `hit0` of type 6. -/
  hit : Bool := true
  /-- `HIT_IMPL[i][6]`: the bit `hit1`. -/
  hit1 : Bool := true
  deriving DecidableEq, Repr

/-- Values that `tdata2` can not hold under some configurations: while the DXLEN = 64 image of `tdata1` (its status bits, `dmode` and
`chain` taken as 0) has `value` in the bits of `mask`, none of the range `(lowest, highest)`. Any set of values under any configuration can be
described so (spec/40_csr_access.md R297, decision D18). -/
structure Tdata2Exclusion where
  mask : Word
  value : Word
  range : Nat × Nat
  deriving DecidableEq, Repr

/-- Values that `tdata3` can not hold under some configurations: while the image of `tdata1` that `Tdata2Exclusion` looks at has `value`
in the bits of `mask`, none whose `textra64` image has `fieldValue` in the bits of `fieldMask`. Any set can be described so. -/
structure Tdata3Exclusion where
  mask : Word
  value : Word
  fieldMask : Word
  fieldValue : Word
  deriving DecidableEq, Repr

/-- The parameters of one trigger (R8). -/
structure TrigImpl where
  /-- `INFO[i]`: bit `n` says that type `n` is supported (spec/10_state.md R36). -/
  info : BitVec 16
  /-- `RESET_TYPE[i]` (spec/70_reset_and_hazards.md R601). -/
  resetType : Nat
  /-- `RESET_DATA[i]` where the reset type is 15; for the other types R604 determines it. Ignored bits that keep nothing read
  this value. -/
  resetData : BitVec 59 := 0
  /-- A write of 0 to `tdata1` of a trigger of a single type keeps that type (spec/40_csr_access.md R287). -/
  disableKeepsType : Bool := false
  /-- Such a trigger can have type 15 all the same, which another write than one of 0 stores: the result of `legalize_tdata1` has "a
  `type` that is in `INFO[i]` or is 15" (R285). -/
  alsoDisabled : Bool := false
  /-- The ignored bits of a type 15 trigger keep what is written (spec/10_state.md R32). -/
  keepDisabledData : Bool := false
  mcontrol : ViewImpl
  icount : ViewImpl
  itrigger : ViewImpl
  etrigger : ViewImpl
  mcontrol6 : ViewImpl
  tmext : ViewImpl
  /-- `MASKMAX[i]` (spec/11_state_trigger_types.md R81). -/
  maskmax : BitVec 6
  /-- `MASKMAX6[i]` (spec/44_mcontrol6.md R450). -/
  maskmax6 : Nat
  /-- A type 2 trigger keeps NAPOT values of an unsupported range out of `tdata2` ("should", U15). -/
  napotChecked : Bool := true
  /-- `TIMINGS[i]`, value 0: bit `{load, store, execute, select}` says whether `timing` = 0 is supported for that
  combination of the four bits, `load` the most significant (R85, R424). -/
  timing0 : BitVec 16 := 0xffff
  /-- `TIMINGS[i]`, value 1. -/
  timing1 : BitVec 16 := 0xffff
  /-- `MC6_TIMING(i, e)` (R443). -/
  mc6Timing : Mc6Timing
  /-- `COUNT_HARDWIRED_1[i]` (spec/45_icount.md R483). -/
  countHardwired : Bool := false
  /-- `COUNT_BITS[i]`. -/
  countBits : Nat := 14
  /-- `ITRIGGER_MASK[i]` (spec/46_itrigger_etrigger.md R493). -/
  itriggerMask : Word
  /-- `ETRIGGER_MASK[i]` (R498). -/
  etriggerMask : Word
  /-- `NMI_IMPL[i]`. -/
  nmi : Bool := true
  /-- `INTCTL_IMPL[i]`. -/
  intctl : Bool := true
  /-- `tmexttrigger.select` bits of unsupported inputs keep what is written (R512, decision D26). -/
  extSelectKept : Bool := true
  /-- `UNCERTAIN_IMPL[i]` (R446). -/
  uncertain : Bool := true
  /-- `MHVALUE_BITS[i]`. -/
  mhvalueBits : Nat := 13
  /-- `SVALUE_BITS[i]`. -/
  svalueBits : Nat := 32
  /-- `SBYTEMASK_BITS[i]`. -/
  sbytemaskBits : Nat := 4
  /-- `MHSELECTS[i]`; 0 is supported in any case (R300). -/
  mhselects : List Nat := [0, 1, 2, 4, 5, 6]
  /-- `SSELECTS[i]`; 0 is supported in any case. -/
  sselects : List Nat := [0, 1, 2]
  /-- `svalue` and `sselect` are tied to 0 when the hart has no S-mode ("should", spec/48_textra.md R533). -/
  tiedWithoutS : Bool := true
  /-- `tdata3` is hard-wired 0 while the trigger has type 7 ("may", spec/40_csr_access.md R300). -/
  tmextTdata3Zero : Bool := true
  /-- The types of 2 to 6 under which the trigger implements no `textra`: `tdata3` is hard-wired 0 while it has one of them
  (spec/40_csr_access.md R274, R300). -/
  noTextra : List Nat := []
  /-- Which of the values that the widths and selects admit `tdata3` can not hold under which configurations. 0 is not excluded by any
  entry: "may only support 0 (ignore)" (R300). -/
  tdata3Excluded : List Tdata3Exclusion := []
  /-- The values besides 0 and the valid addresses that `tdata2` can hold, as ranges `(lowest, highest)`
  (spec/20_memory.md R203, R204). -/
  tdata2Ranges : List (Nat × Nat) := [(0, 2 ^ 32 - 1)]
  /-- Which of all these values `tdata2` can not hold under which configurations. What the spec requires a trigger to hold is
  not excluded by any entry (`mustHold`). -/
  tdata2Excluded : List Tdata2Exclusion := []
  /-- `tdata2` after reset: "an unspecified value that is legal for the trigger's reset `tdata1`"
  (spec/70_reset_and_hazards.md R602). -/
  resetTdata2 : Word := 0
  /-- The configurations beyond R286 to R296 that the trigger does not support, as pairs of a mask and a value of the
  masked DXLEN = 64 image of `tdata1`, its status bits taken as 0 (spec/40_csr_access.md R282, R294, U26). -/
  rejects : List (Word × Word) := []
  /-- Whether the trigger supports a configuration may also depend on what its registers hold and on the writer, as the free
  function `Config.warlRefuses` says: `legalize_tdata1` is given both, and constrained "by nothing else" (R285, decision D18).
  Likewise for a value of `tdata2` or `tdata3` that the spec does not require it to hold, by `Config.warlRefusesTdata2` and
  `Config.warlRefusesTdata3` (R297). -/
  mayRefuse : Bool := false
  /-- Where it rejects or refuses anything, one configuration of size 0 that it always supports for each of types 2 and 6 it has,
  as such an image: "An implementation must support the value of 0" (R296, spec/11_state_trigger_types.md R86, R107). -/
  anySize : List Word := []
  deriving DecidableEq, Repr

/-- The parameters of the hart and of the Trigger Module as a whole (R8). `XLEN` is not here: it may
differ between modes and change (spec/10_state.md R24), and lies in State. `NTRIG` is the length of State's list of triggers. -/
structure Config where
  /-- `DXLEN` (R25, decision D2). -/
  dxlen : Xlen := .x32
  /-- Some mode's effective XLEN can be less than DXLEN (R24; decision D2's default is that none can). -/
  narrowXlen : Bool := true
  hasS : Bool := true
  hasU : Bool := true
  hasH : Bool := false
  hasA : Bool := true
  /-- `HAS_COMBINED`: the hart has instructions that perform several accesses (R382). -/
  hasCombined : Bool := true
  hasCacheops : Bool := true
  cacheBlockBytes : Nat := 64
  hasSmstateen : Bool := false
  hasDebugMode : Bool := true
  hasNmi : Bool := true
  asidMax : Nat := 9
  vmidMax : Nat := 7
  /-- `ILENS`: the instruction lengths the hart executes, in bits. -/
  ilens : List Nat := [16, 32]
  selectPolicy : SelectPolicy := .keep
  /-- `TSELECT_RESET` (spec/10_state.md R28). -/
  tselectReset : Word := 0
  hasTinfo : Bool := true
  /-- `VERSION`. -/
  version : BitVec 8 := 1
  hasTdata2 : Bool := true
  hasTdata3 : Bool := true
  hasTcontrol : Bool := true
  hasScontext : Bool := true
  /-- `SCONTEXT_BITS`. -/
  scontextBits : Nat := 16
  hasMscontext : Bool := true
  hasMcontext : Bool := true
  /-- `MCONTEXT_BITS`. -/
  mcontextBits : Nat := 6
  hasHcontext : Bool := false
  hitOnMatch : Bool := false
  ignoreDmodeSetAfterChain : Bool := true
  virtInsnOnVAccess : Bool := false
  /-- `is_valid_addr`, as ranges `(lowest, highest)` of DXLEN-bit addresses (spec/20_memory.md R202). -/
  validRanges : List (Nat × Nat) := [(0, 2 ^ 32 - 1)]
  allBytesCompare : Bool := false
  /-- `EXT_INPUTS`. -/
  extInputs : Nat := 16
  /-- `EXT_OUTPUTS`: TM external trigger output 0 exists. -/
  extOut0 : Bool := true
  /-- `EXT_OUTPUTS`: TM external trigger output 1 exists. -/
  extOut1 : Bool := true
  extPending : ExtPending := .drop
  reentrancy : Reentrancy := .unprotected
  bothActions : BothActions := .debugOnly
  precise : Bool := true
  tvalPolicy : TvalPolicy := .address
  cacheopCompare : CacheopCompare := .range
  invalidAddrPolicy : InvalidAddrPolicy := .asIs
  deriving DecidableEq, Repr

/-- The actions Table 1 gives a meaning (spec/41_trigger_common.md R330). -/
def definedActions : List Nat := [0, 1, 2, 3, 4, 8, 9]

/-- The `match` codes that are not reserved (spec/42_memory_access_triggers.md R396 to R403). -/
def definedMatchOps : List Nat := [0, 1, 2, 3, 4, 5, 8, 9, 12, 13]

/-- The default trigger of spec/95_test_vectors.md: every field supported, `MASKMAX` and `MASKMAX6` 4. -/
def TrigImpl.default (info : BitVec 16) : TrigImpl where
  info := info
  resetType := 15
  mcontrol := ⟨definedActions, [0, 1, 2, 3, 4, 5, 6, 7, 8, 9], definedMatchOps, true, true⟩
  icount := ⟨definedActions, [], [], true, true⟩
  itrigger := ⟨definedActions, [], [], true, true⟩
  etrigger := ⟨definedActions, [], [], true, true⟩
  mcontrol6 := ⟨definedActions, [0, 1, 2, 3, 4, 5, 6], definedMatchOps, true, true⟩
  tmext := ⟨definedActions, [], [], true, true⟩
  maskmax := 4
  maskmax6 := 4
  mc6Timing := .always .before
  itriggerMask := Xlen.allOnes .x32
  etriggerMask := Xlen.allOnes .x32

/-- The triggers of spec/95_test_vectors.md's default configuration. -/
def TrigImpl.defaults : List TrigImpl := [TrigImpl.default 0x8044, TrigImpl.default 0x80fc]

/-- The default configuration of spec/95_test_vectors.md. -/
def Config.default : Config := {}

/-- The places where the spec leaves a value free. -/
inductive FreePoint where
  /-- Whether a trigger matches where the source says UNSPECIFIED or "only well-defined if" (U4, U5, U8, R378). -/
  | matchResult
  /-- Whether an imperfectly observed event could match (U25). -/
  | possible
  /-- Which invalid address stands for an invalid address (U17). -/
  | remap
  /-- Whether a failing `sc` is a store (U3). -/
  | failingSc
  /-- Which `tval` a breakpoint gets where there are several candidates (U1). -/
  | tvalChoice
  /-- Whether the trap comes before Debug Mode entry when both take place (U2). -/
  | bothOrder
  /-- How many of an instruction's completed accesses had their effect when it was stopped (U6). -/
  | accessesDone
  /-- `pending` of an icount trigger after the instruction that writes it (U13). -/
  | pendingSelfWrite
  /-- Whether an imprecise trigger fires at this boundary (U18). -/
  | impreciseNow
  /-- When a `drawn` mcontrol6 trigger fires (U27). -/
  | mc6Time
  /-- Where control goes on a trap (91_not_in_source.md N35). -/
  | handler
  /-- What the hart records in `tval` for an exception that is not a trigger's (R551). -/
  | hostTval
  /-- What a CSR that is not the Trigger Module's reads as. -/
  | hostCsr
  deriving DecidableEq, Repr

/-- A free truth value. -/
opaque Config.freeBit (at_ : FreePoint) (draws index : Nat) : Bool

/-- A free number. -/
opaque Config.freeNat (at_ : FreePoint) (draws index : Nat) : Nat

/-- A free word. -/
opaque Config.freeWord (at_ : FreePoint) (draws index : Nat) : Word

/-- What an implementation offers for an unsupported write to `tdata1` of trigger `i`, as an image of the effective XLEN, so
that what XLEN = 32 cannot reach is cleared (R284): it is stored if it is legal (spec/40_csr_access.md R285, U26). -/
opaque Config.warlTdata1 (i : Nat) (old new tdata2 tdata3 : Word) (debug : Bool) : Word

/-- Whether an implementation with `TrigImpl.mayRefuse` takes a write to `tdata1` of trigger `i` as one of an unsupported
configuration (R282, R285, D18). -/
opaque Config.warlRefuses (i : Nat) (old new tdata2 tdata3 : Word) (debug : Bool) : Bool

/-- What an implementation offers for an unsupported write to `tdata2` of trigger `i` (R297, U16, U17, U26). -/
opaque Config.warlTdata2 (i : Nat) (tdata1 old new : Word) : Word

/-- Whether an implementation with `TrigImpl.mayRefuse` takes a write to `tdata2` of trigger `i` as one of an unsupported value
(R297, D18). -/
opaque Config.warlRefusesTdata2 (i : Nat) (tdata1 old new : Word) : Bool

/-- What an implementation offers for an unsupported write to `tdata3` of trigger `i` (R297, U26). -/
opaque Config.warlTdata3 (i : Nat) (tdata1 old new : Word) : Word

/-- Whether an implementation with `TrigImpl.mayRefuse` takes a write to `tdata3` of trigger `i` as one of an unsupported value
(R297, D18). -/
opaque Config.warlRefusesTdata3 (i : Nat) (tdata1 old new : Word) : Bool

/-- What `tselect` holds after a write of a value that selects no trigger, under `SelectPolicy.free` (R280, U14). -/
opaque Config.legalizeTselect (v : Word) : Word

end Sys2Proof
end

