-- ==== Sys2Proof/Machine/Views.lean ====
section
/-! DEFINITION. The views of `tdata1` and of `tdata3`, field by field (spec/11_state_trigger_types.md), and their images:
the XLEN-bit values a CSR read returns and a CSR write takes.

A register is stored as its FIELDS, because "Fields retain their values regardless of XLEN, which only affects where in the
register these fields appear" (spec/10_state.md R24). `image64` and `image32` lay the fields out as the layout rules R80,
R100, R125, R140, R155, R170, R180, R190 say (every bit position is the spec's own restoration, GK2); `ofImage64` and
`ofImage32` read them back. Positions that read 0 and ignore writes are no field. -/

namespace Sys2Proof.Machine

/-- `mcontrol`, type 2 (R80 to R95). `size` is the 4-bit code `{sizehi, sizelo}` (R86); `matchOp` is the field `match`. -/
structure Mcontrol where
  maskmax : BitVec 6 := 0
  size : BitVec 4 := 0
  hit : Bool := false
  select : Bool := false
  timing : Bool := false
  action : BitVec 4 := 0
  chain : Bool := false
  matchOp : BitVec 4 := 0
  m : Bool := false
  s : Bool := false
  u : Bool := false
  execute : Bool := false
  store : Bool := false
  load : Bool := false
  deriving DecidableEq, Repr

/-- `mcontrol6`, type 6 (R100 to R117). -/
structure Mcontrol6 where
  uncertain : Bool := false
  hit1 : Bool := false
  vs : Bool := false
  vu : Bool := false
  hit0 : Bool := false
  select : Bool := false
  size : BitVec 3 := 0
  action : BitVec 4 := 0
  chain : Bool := false
  matchOp : BitVec 4 := 0
  m : Bool := false
  uncertainen : Bool := false
  s : Bool := false
  u : Bool := false
  execute : Bool := false
  store : Bool := false
  load : Bool := false
  deriving DecidableEq, Repr

/-- `icount`, type 3 (R125 to R134). -/
structure Icount where
  vs : Bool := false
  vu : Bool := false
  hit : Bool := false
  count : BitVec 14 := 0
  m : Bool := false
  pending : Bool := false
  s : Bool := false
  u : Bool := false
  action : BitVec 6 := 0
  deriving DecidableEq, Repr

/-- `itrigger`, type 4 (R140 to R148). -/
structure Itrigger where
  hit : Bool := false
  vs : Bool := false
  vu : Bool := false
  nmi : Bool := false
  m : Bool := false
  s : Bool := false
  u : Bool := false
  action : BitVec 6 := 0
  deriving DecidableEq, Repr

/-- `etrigger`, type 5 (R155 to R162). -/
structure Etrigger where
  hit : Bool := false
  vs : Bool := false
  vu : Bool := false
  m : Bool := false
  s : Bool := false
  u : Bool := false
  action : BitVec 6 := 0
  deriving DecidableEq, Repr

/-- `tmexttrigger`, type 7 (R170 to R174). -/
structure Tmext where
  hit : Bool := false
  intctl : Bool := false
  select : BitVec 16 := 0
  action : BitVec 6 := 0
  deriving DecidableEq, Repr

/-- The view `tdata1.type` selects (spec/10_state.md R30). Types 0, 1 and 8 to 14 are never stored (R290, decision D27), so
they have no view. A type 15 trigger keeps the ignored bits as `data` (R198). -/
inductive View where
  | mcontrol (f : Mcontrol)
  | icount (f : Icount)
  | itrigger (f : Itrigger)
  | etrigger (f : Etrigger)
  | mcontrol6 (f : Mcontrol6)
  | tmext (f : Tmext)
  | disabled (data : BitVec 59)
  deriving DecidableEq, Repr

/-- `tdata1` of one trigger: `dmode` and the rest under its type (R29). -/
structure Tdata1 where
  dmode : Bool := false
  view : View
  deriving DecidableEq, Repr

/-- `tdata3` of one trigger, as the fields of `textra64` (R190 to R195); `textra32` shows the low bits of each (R186). -/
structure Textra where
  mhvalue : BitVec 13 := 0
  mhselect : BitVec 3 := 0
  sbytemask : BitVec 4 := 0
  svalue : BitVec 32 := 0
  sselect : BitVec 2 := 0
  deriving DecidableEq, Repr

/-- The value of the field `type` (R30). -/
def View.typ : View → Nat
  | .mcontrol _ => 2
  | .icount _ => 3
  | .itrigger _ => 4
  | .etrigger _ => 5
  | .mcontrol6 _ => 6
  | .tmext _ => 7
  | .disabled _ => 15

/-- The value of the field `type` of a `tdata1`. -/
def Tdata1.typ (t : Tdata1) : Nat := t.view.typ

/-- One field bit as a one-bit value. -/
def bit (b : Bool) : BitVec 1 := BitVec.ofBool b

/-- Bits 22:0 of `mcontrol` but for `sizehi`, which are bits 20:0: the same in both widths (R80). -/
def Mcontrol.low (f : Mcontrol) : BitVec 21 :=
  bit f.hit ++ bit f.select ++ bit f.timing ++ f.size.extractLsb' 0 2 ++ f.action ++ bit f.chain ++ f.matchOp ++ bit f.m
    ++ 0#1 ++ bit f.s ++ bit f.u ++ bit f.execute ++ bit f.store ++ bit f.load

/-- Bits 26:0 of `mcontrol6`, the same in both widths (R100). -/
def Mcontrol6.low (f : Mcontrol6) : BitVec 27 :=
  bit f.uncertain ++ bit f.hit1 ++ bit f.vs ++ bit f.vu ++ bit f.hit0 ++ bit f.select ++ 0#2 ++ f.size ++ f.action
    ++ bit f.chain ++ f.matchOp ++ bit f.m ++ bit f.uncertainen ++ bit f.s ++ bit f.u ++ bit f.execute ++ bit f.store
    ++ bit f.load

/-- Bits 26:0 of `icount`, the same in both widths (R125). -/
def Icount.low (f : Icount) : BitVec 27 :=
  bit f.vs ++ bit f.vu ++ bit f.hit ++ f.count ++ bit f.m ++ bit f.pending ++ bit f.s ++ bit f.u ++ f.action

/-- Bits 12:0 of `itrigger`; `hit` stands at XLEN-6 (R140). -/
def Itrigger.low (f : Itrigger) : BitVec 13 :=
  bit f.vs ++ bit f.vu ++ bit f.nmi ++ bit f.m ++ 0#1 ++ bit f.s ++ bit f.u ++ f.action

/-- Bits 12:0 of `etrigger`; `hit` stands at XLEN-6 (R155). -/
def Etrigger.low (f : Etrigger) : BitVec 13 :=
  bit f.vs ++ bit f.vu ++ 0#1 ++ bit f.m ++ 0#1 ++ bit f.s ++ bit f.u ++ f.action

/-- Bits 22:0 of `tmexttrigger`; `hit` stands at XLEN-6 (R170). -/
def Tmext.low (f : Tmext) : BitVec 23 :=
  bit f.intctl ++ f.select ++ f.action

/-- The fields of `mcontrol` read from bits 20:0 of an image, given `maskmax` and `sizehi`. -/
def Mcontrol.ofLow (maskmax : BitVec 6) (sizehi : BitVec 2) (v : Word) : Mcontrol where
  maskmax := maskmax
  size := sizehi ++ v.extractLsb' 16 2
  hit := v.getLsbD 20
  select := v.getLsbD 19
  timing := v.getLsbD 18
  action := v.extractLsb' 12 4
  chain := v.getLsbD 11
  matchOp := v.extractLsb' 7 4
  m := v.getLsbD 6
  s := v.getLsbD 4
  u := v.getLsbD 3
  execute := v.getLsbD 2
  store := v.getLsbD 1
  load := v.getLsbD 0

/-- The fields of `mcontrol6` read from bits 26:0 of an image. -/
def Mcontrol6.ofLow (v : Word) : Mcontrol6 where
  uncertain := v.getLsbD 26
  hit1 := v.getLsbD 25
  vs := v.getLsbD 24
  vu := v.getLsbD 23
  hit0 := v.getLsbD 22
  select := v.getLsbD 21
  size := v.extractLsb' 16 3
  action := v.extractLsb' 12 4
  chain := v.getLsbD 11
  matchOp := v.extractLsb' 7 4
  m := v.getLsbD 6
  uncertainen := v.getLsbD 5
  s := v.getLsbD 4
  u := v.getLsbD 3
  execute := v.getLsbD 2
  store := v.getLsbD 1
  load := v.getLsbD 0

/-- The fields of `icount` read from bits 26:0 of an image. -/
def Icount.ofLow (v : Word) : Icount where
  vs := v.getLsbD 26
  vu := v.getLsbD 25
  hit := v.getLsbD 24
  count := v.extractLsb' 10 14
  m := v.getLsbD 9
  pending := v.getLsbD 8
  s := v.getLsbD 7
  u := v.getLsbD 6
  action := v.extractLsb' 0 6

/-- The fields of `itrigger` read from bits 12:0 of an image and its `hit`. -/
def Itrigger.ofLow (hit : Bool) (v : Word) : Itrigger where
  hit := hit
  vs := v.getLsbD 12
  vu := v.getLsbD 11
  nmi := v.getLsbD 10
  m := v.getLsbD 9
  s := v.getLsbD 7
  u := v.getLsbD 6
  action := v.extractLsb' 0 6

/-- The fields of `etrigger` read from bits 12:0 of an image and its `hit`. -/
def Etrigger.ofLow (hit : Bool) (v : Word) : Etrigger where
  hit := hit
  vs := v.getLsbD 12
  vu := v.getLsbD 11
  m := v.getLsbD 9
  s := v.getLsbD 7
  u := v.getLsbD 6
  action := v.extractLsb' 0 6

/-- The fields of `tmexttrigger` read from bits 22:0 of an image and its `hit`. -/
def Tmext.ofLow (hit : Bool) (v : Word) : Tmext where
  hit := hit
  intctl := v.getLsbD 22
  select := v.extractLsb' 6 16
  action := v.extractLsb' 0 6

/-- `tdata1` as read with XLEN = 64. -/
def Tdata1.image64 (t : Tdata1) : BitVec 64 :=
  match t.view with
  | .mcontrol f => 2#4 ++ bit t.dmode ++ f.maskmax ++ 0#30 ++ f.size.extractLsb' 2 2 ++ f.low
  | .mcontrol6 f => 6#4 ++ bit t.dmode ++ 0#32 ++ f.low
  | .icount f => 3#4 ++ bit t.dmode ++ 0#32 ++ f.low
  | .itrigger f => 4#4 ++ bit t.dmode ++ bit f.hit ++ 0#45 ++ f.low
  | .etrigger f => 5#4 ++ bit t.dmode ++ bit f.hit ++ 0#45 ++ f.low
  | .tmext f => 7#4 ++ bit t.dmode ++ bit f.hit ++ 0#35 ++ f.low
  | .disabled data => 15#4 ++ bit t.dmode ++ data

/-- `tdata1` as read with XLEN = 32: `sizehi` does not exist (R82), and the upper part of the ignored bits of a type 15
trigger is not readable (spec/10_state.md R24). -/
def Tdata1.image32 (t : Tdata1) : BitVec 32 :=
  match t.view with
  | .mcontrol f => 2#4 ++ bit t.dmode ++ f.maskmax ++ f.low
  | .mcontrol6 f => 6#4 ++ bit t.dmode ++ f.low
  | .icount f => 3#4 ++ bit t.dmode ++ f.low
  | .itrigger f => 4#4 ++ bit t.dmode ++ bit f.hit ++ 0#13 ++ f.low
  | .etrigger f => 5#4 ++ bit t.dmode ++ bit f.hit ++ 0#13 ++ f.low
  | .tmext f => 7#4 ++ bit t.dmode ++ bit f.hit ++ 0#3 ++ f.low
  | .disabled data => 15#4 ++ bit t.dmode ++ data.extractLsb' 0 27

/-- The fields a written XLEN = 64 image asks for; none for a type that is never stored. -/
def Tdata1.ofImage64 (v : Word) : Option Tdata1 :=
  let dmode := v.getLsbD 59
  match (v.extractLsb' 60 4).toNat with
  | 2 => some ⟨dmode, .mcontrol (.ofLow (v.extractLsb' 53 6) (v.extractLsb' 21 2) v)⟩
  | 3 => some ⟨dmode, .icount (.ofLow v)⟩
  | 4 => some ⟨dmode, .itrigger (.ofLow (v.getLsbD 58) v)⟩
  | 5 => some ⟨dmode, .etrigger (.ofLow (v.getLsbD 58) v)⟩
  | 6 => some ⟨dmode, .mcontrol6 (.ofLow v)⟩
  | 7 => some ⟨dmode, .tmext (.ofLow (v.getLsbD 58) v)⟩
  | 15 => some ⟨dmode, .disabled (v.extractLsb' 0 59)⟩
  | _ => none

/-- The fields a written XLEN = 32 image, held in the low half of `v`, asks for. What XLEN = 32 cannot reach becomes 0
(spec/40_csr_access.md R284). -/
def Tdata1.ofImage32 (v : Word) : Option Tdata1 :=
  let dmode := v.getLsbD 27
  match (v.extractLsb' 28 4).toNat with
  | 2 => some ⟨dmode, .mcontrol (.ofLow (v.extractLsb' 21 6) 0 v)⟩
  | 3 => some ⟨dmode, .icount (.ofLow v)⟩
  | 4 => some ⟨dmode, .itrigger (.ofLow (v.getLsbD 26) v)⟩
  | 5 => some ⟨dmode, .etrigger (.ofLow (v.getLsbD 26) v)⟩
  | 6 => some ⟨dmode, .mcontrol6 (.ofLow v)⟩
  | 7 => some ⟨dmode, .tmext (.ofLow (v.getLsbD 26) v)⟩
  | 15 => some ⟨dmode, .disabled ((v.extractLsb' 0 27).setWidth 59)⟩
  | _ => none

/-- `tdata1` as read in the effective XLEN, zero-extended (spec/10_state.md R24, R29). -/
def Tdata1.image (x : Xlen) (t : Tdata1) : Word :=
  match x with
  | .x32 => t.image32.setWidth 64
  | .x64 => t.image64

/-- The fields an image written in the effective XLEN asks for. -/
def Tdata1.ofImage (x : Xlen) (v : Word) : Option Tdata1 :=
  match x with
  | .x32 => Tdata1.ofImage32 v
  | .x64 => Tdata1.ofImage64 v

/-- The bit `dmode` of an XLEN-bit image of `tdata1` (bit XLEN-5, R29). -/
def dmodeBit (x : Xlen) : Word :=
  match x with
  | .x32 => 0x08000000#64
  | .x64 => 0x0800000000000000#64

/-- `tdata3` as `textra64` (R190). -/
def Textra.image64 (t : Textra) : BitVec 64 :=
  t.mhvalue ++ t.mhselect ++ 0#8 ++ t.sbytemask ++ 0#2 ++ t.svalue ++ t.sselect

/-- `tdata3` as `textra32` (R180, R186). -/
def Textra.image32 (t : Textra) : BitVec 32 :=
  t.mhvalue.extractLsb' 0 6 ++ t.mhselect ++ 0#3 ++ t.sbytemask.extractLsb' 0 2 ++ t.svalue.extractLsb' 0 16 ++ t.sselect

/-- The fields of a `textra64` image. -/
def Textra.ofImage64 (v : Word) : Textra where
  mhvalue := v.extractLsb' 51 13
  mhselect := v.extractLsb' 48 3
  sbytemask := v.extractLsb' 36 4
  svalue := v.extractLsb' 2 32
  sselect := v.extractLsb' 0 2

/-- The fields of a `textra32` image: "Writes to this register will clear the high bits of the corresponding fields in
textra64" (R186). -/
def Textra.ofImage32 (v : Word) : Textra where
  mhvalue := (v.extractLsb' 26 6).setWidth 13
  mhselect := v.extractLsb' 23 3
  sbytemask := (v.extractLsb' 18 2).setWidth 4
  svalue := (v.extractLsb' 2 16).setWidth 32
  sselect := v.extractLsb' 0 2

/-- `tdata3` as read in the effective XLEN. -/
def Textra.image (x : Xlen) (t : Textra) : Word :=
  match x with
  | .x32 => t.image32.setWidth 64
  | .x64 => t.image64

/-- The fields an image of `tdata3` written in the effective XLEN asks for. -/
def Textra.ofImage (x : Xlen) (v : Word) : Textra :=
  match x with
  | .x32 => Textra.ofImage32 v
  | .x64 => Textra.ofImage64 v

/-- `tdata3` as read in the effective XLEN after a write of R25: the 32 bits written, sign-extended
(spec/10_state.md R25). -/
def Textra.imageSext (x : Xlen) (t : Textra) : Word :=
  match x with
  | .x32 => t.image32.setWidth 64
  | .x64 => t.image32.signExtend 64

/-- The part of a `textra` that XLEN = 32 reaches (spec/48_textra.md R535). -/
def Textra.low32 (t : Textra) : Textra := Textra.ofImage32 (t.image32.setWidth 64)

/-- The view with the status bits at 0 that software "can set or clear at any time" (spec/40_csr_access.md R294): `hit`, `hit1`,
`hit0`, `uncertain` and `pending`. -/
def View.unflagged : View → View
  | .mcontrol f => .mcontrol { f with hit := false }
  | .icount f => .icount { f with hit := false, pending := false }
  | .itrigger f => .itrigger { f with hit := false }
  | .etrigger f => .etrigger { f with hit := false }
  | .mcontrol6 f => .mcontrol6 { f with hit0 := false, hit1 := false, uncertain := false }
  | .tmext f => .tmext { f with hit := false }
  | .disabled data => .disabled data

/-- What of the view the values that `tdata2` can hold may depend on: the status bits are 0, and so are `chain`, which a write may
lose to its neighbour (R292), and the `count` and the enables of an icount, which hardware changes. -/
def View.shape : View → View
  | .mcontrol f => .mcontrol { f with hit := false, chain := false }
  | .icount f => .icount { action := f.action }
  | .itrigger f => .itrigger { f with hit := false }
  | .etrigger f => .etrigger { f with hit := false }
  | .mcontrol6 f => .mcontrol6 { f with hit0 := false, hit1 := false, uncertain := false, chain := false }
  | .tmext f => .tmext { f with hit := false }
  | .disabled data => .disabled data

/-- `tdata1` with those status bits at 0: the configuration. -/
def Tdata1.unflagged (t : Tdata1) : Tdata1 := { t with view := t.view.unflagged }

/-- The field `action` as a number (R87, R108, R134, R148, R162, R174). A type 15 trigger has none. -/
def View.action : View → Nat
  | .mcontrol f => f.action.toNat
  | .icount f => f.action.toNat
  | .itrigger f => f.action.toNat
  | .etrigger f => f.action.toNat
  | .mcontrol6 f => f.action.toNat
  | .tmext f => f.action.toNat
  | .disabled _ => 0

/-- The field `action` of a `tdata1`. -/
def Tdata1.action (t : Tdata1) : Nat := t.view.action

/-- The field `size` of types 2 and 6 as a number (R86, R107). -/
def View.sizeCode : View → Nat
  | .mcontrol f => f.size.toNat
  | .mcontrol6 f => f.size.toNat
  | .icount _ => 0
  | .itrigger _ => 0
  | .etrigger _ => 0
  | .tmext _ => 0
  | .disabled _ => 0

/-- The view gives `tdata3` the fields of `textra`: types 2 to 6 (R180, R190, spec/48_textra.md R525). -/
def View.hasTextra : View → Bool
  | .mcontrol _ => true
  | .icount _ => true
  | .itrigger _ => true
  | .etrigger _ => true
  | .mcontrol6 _ => true
  | .tmext _ => false
  | .disabled _ => false

/-- `chain_link` of spec/41_trigger_common.md R345: a type 2 or 6 trigger with `chain` = 1. -/
def Tdata1.isLink (t : Tdata1) : Bool :=
  match t.view with
  | .mcontrol f => f.chain
  | .mcontrol6 f => f.chain
  | _ => false

/-- The trigger with its `chain` bit 0 (spec/40_csr_access.md R292). -/
def Tdata1.withoutChain (t : Tdata1) : Tdata1 :=
  match t.view with
  | .mcontrol f => { t with view := .mcontrol { f with chain := false } }
  | .mcontrol6 f => { t with view := .mcontrol6 { f with chain := false } }
  | _ => t

/-- Every bit that enables matching is 0: the mode enables and the watched kinds of event, or for type 7 the selected
inputs (R287). -/
def View.enablesClear : View → Bool
  | .mcontrol f => !(f.m || f.s || f.u || f.execute || f.store || f.load)
  | .icount f => !(f.m || f.s || f.u || f.vs || f.vu)
  | .itrigger f => !(f.m || f.s || f.u || f.vs || f.vu)
  | .etrigger f => !(f.m || f.s || f.u || f.vs || f.vu)
  | .mcontrol6 f => !(f.m || f.s || f.u || f.vs || f.vu || f.execute || f.store || f.load)
  | .tmext f => !f.intctl && f.select == 0
  | .disabled _ => true

end Sys2Proof.Machine
end

