-- ==== Sys2Proof/Machine/Warl.lean ====
section
/-! DEFINITION. Which values the `tdata` registers of one trigger can hold, and what a write stores: the functions
`legalize_tdata1`, `legalize_tdata2` and `legalize_tdata3` of spec/40_csr_access.md R282 to R300.

A write is legalised in two steps. First every bit that is hard-wired or not implemented takes the value it always has
(`normal`): the spec says of each that "writing it has no effect". If the result is a supported configuration it is stored.
If not (or if the implementation refuses it for a reason of its own), "the register will read back a value that is
supported", and which one is the implementation's: a free function of Config is asked, its answer is stored if it is legal, and a trigger that is disabled (or for `tdata2` and `tdata3` a value
named below) is stored if it is not. So every function that meets R286 to R300 is covered (decision D18). -/

namespace Sys2Proof.Machine

/-- The value lies in one of the ranges. -/
def inRanges (ranges : List (Nat × Nat)) (v : Word) : Bool :=
  ranges.any fun r => decide (r.1 ≤ v.toNat) && decide (v.toNat ≤ r.2)

/-- `is_valid_addr` on DXLEN-bit addresses (spec/20_memory.md R202). -/
def validAddr (cfg : Config) (v : Word) : Bool := inRanges cfg.validRanges v

/-- An XLEN-bit value as the DXLEN-bit value that `tdata2` stores: "If XLEN is less than DXLEN, writes to this register are
sign-extended" (spec/10_state.md R25). -/
def widen (dxlen x : Xlen) (v : Word) : Word :=
  match dxlen, x with
  | .x64, .x32 => (v.extractLsb' 0 32).signExtend 64
  | .x64, .x64 => v
  | .x32, _ => Xlen.trunc .x32 v

/-- The index of the lowest 0 bit of the low `n` bits, if there is one (spec/42_memory_access_triggers.md R397). -/
def lowestZero (n : Nat) (v : Word) : Option Nat :=
  (List.range n).find? fun i => !v.getLsbD i

/-! ## Hard-wired and unimplemented bits -/

/-- The `timing` an mcontrol trigger takes for a combination of `select`, `execute`, `load` and `store`: the one asked for
where it is supported, else the other: "may force" (spec/43_mcontrol.md R424). That it is forced before anything else is judged is
the model's (DESIGN CHOICE, log entry 51). -/
def legalTiming (p : TrigImpl) (select execute store load asked : Bool) : Bool :=
  let i := select.toNat + 2 * execute.toNat + 4 * store.toNat + 8 * load.toNat
  if asked then p.timing1.getLsbD i else !p.timing0.getLsbD i

/-- Type 2 with its fixed bits (R81, R83, R91, R92, R424); `sizehi` does not exist with DXLEN = 32 (R82). -/
def Mcontrol.normal (cfg : Config) (p : TrigImpl) (f : Mcontrol) : Mcontrol :=
  { f with
    maskmax := p.maskmax
    size := if cfg.dxlen = .x32 then f.size &&& 3 else f.size
    hit := f.hit && p.mcontrol.hit
    timing := legalTiming p f.select f.execute f.store f.load f.timing
    s := f.s && cfg.hasS
    u := f.u && cfg.hasU }

/-- Type 6 with its fixed bits (R101 to R105, R112 to R114, spec/44_mcontrol6.md R446). -/
def Mcontrol6.normal (cfg : Config) (p : TrigImpl) (f : Mcontrol6) : Mcontrol6 :=
  { f with
    uncertain := f.uncertain && p.uncertain
    uncertainen := f.uncertainen && p.uncertain
    hit0 := f.hit0 && p.mcontrol6.hit
    hit1 := f.hit1 && p.mcontrol6.hit1
    vs := f.vs && cfg.hasH
    vu := f.vu && cfg.hasH
    s := f.s && cfg.hasS
    u := f.u && cfg.hasU }

/-- `count` as an implementation holds it: hard-wired to 1, or its implemented low bits (R129). -/
def legalCount (p : TrigImpl) (count : BitVec 14) : BitVec 14 :=
  if p.countHardwired then 1 else count &&& BitVec.ofNat 14 (2 ^ p.countBits - 1)

/-- Type 3 with its fixed bits (R126 to R133). -/
def Icount.normal (cfg : Config) (p : TrigImpl) (f : Icount) : Icount :=
  { f with
    vs := f.vs && cfg.hasH
    vu := f.vu && cfg.hasH
    hit := f.hit && p.icount.hit
    count := legalCount p f.count
    s := f.s && cfg.hasS
    u := f.u && cfg.hasU }

/-- Type 4 with its fixed bits (R141 to R147). -/
def Itrigger.normal (cfg : Config) (p : TrigImpl) (f : Itrigger) : Itrigger :=
  { f with
    hit := f.hit && p.itrigger.hit
    vs := f.vs && cfg.hasH
    vu := f.vu && cfg.hasH
    nmi := f.nmi && p.nmi
    s := f.s && cfg.hasS
    u := f.u && cfg.hasU }

/-- Type 5 with its fixed bits (R156 to R161). -/
def Etrigger.normal (cfg : Config) (p : TrigImpl) (f : Etrigger) : Etrigger :=
  { f with
    hit := f.hit && p.etrigger.hit
    vs := f.vs && cfg.hasH
    vu := f.vu && cfg.hasH
    s := f.s && cfg.hasS
    u := f.u && cfg.hasU }

/-- Type 7 with its fixed bits (R171, R172; `select` bits of unsupported inputs: decision D26). -/
def Tmext.normal (cfg : Config) (p : TrigImpl) (f : Tmext) : Tmext :=
  { f with
    hit := f.hit && p.tmext.hit
    intctl := f.intctl && p.intctl
    select := if p.extSelectKept then f.select else f.select &&& BitVec.ofNat 16 (2 ^ cfg.extInputs - 1) }

/-- What the ignored bits of a type 15 trigger hold (spec/10_state.md R32): what is written, or one constant. The constant is the
preset value of a trigger that resets to type 15 (spec/70_reset_and_hazards.md R601, R604), and 0 for any other (DESIGN CHOICE,
log entry 52). With XLEN = 32 a write keeps the bits of the constant that it cannot reach: they are hard-wired, and nothing a
modification could clear (R24 beside R32; DESIGN CHOICE, log entry 52). -/
def heldData (p : TrigImpl) (data : BitVec 59) : BitVec 59 :=
  if p.keepDisabledData then data else if p.resetType = 15 then p.resetData else 0

/-- The ignored bits of a type 15 trigger; with DXLEN = 32 there are 27 of them. The XLEN of a write does not cut the constant
(log entry 52). -/
def normalData (cfg : Config) (p : TrigImpl) (data : BitVec 59) : BitVec 59 :=
  if cfg.dxlen = .x32 then ((heldData p data).extractLsb' 0 27).setWidth 59 else heldData p data

/-- The view with every hard-wired and unimplemented bit at its fixed value. -/
def View.normal (cfg : Config) (p : TrigImpl) : View → View
  | .mcontrol f => .mcontrol (f.normal cfg p)
  | .icount f => .icount (f.normal cfg p)
  | .itrigger f => .itrigger (f.normal cfg p)
  | .etrigger f => .etrigger (f.normal cfg p)
  | .mcontrol6 f => .mcontrol6 (f.normal cfg p)
  | .tmext f => .tmext (f.normal cfg p)
  | .disabled data => .disabled (normalData cfg p data)

/-- `tdata1` with every hard-wired and unimplemented bit at its fixed value. Without a Debug Mode nothing can set `dmode`
(`HAS_DEBUG_MODE`, spec/00_scope.md R8). -/
def Tdata1.normal (cfg : Config) (p : TrigImpl) (t : Tdata1) : Tdata1 :=
  ⟨t.dmode && cfg.hasDebugMode, t.view.normal cfg p⟩

/-! ## Supported configurations of `tdata1` -/

/-- The trigger supports type `n` (spec/10_state.md R36). -/
def supportsType (p : TrigImpl) (n : Nat) : Bool := p.info.getLsbD n

/-- `INFO[i]` holds more than one type (spec/40_csr_access.md R287). -/
def multiType (p : TrigImpl) : Bool :=
  decide (1 < ((List.range 16).filter fun n => p.info.getLsbD n).length)

/-- Type 15 can be stored: it is in `INFO[i]`, it is how the trigger is disabled (R287), or the implementation has it besides
(R285). -/
def hasDisabled (p : TrigImpl) : Bool := supportsType p 15 || multiType p || !p.disableKeepsType || p.alsoDisabled

/-- An `action` code the view accepts: in its set, given a meaning by Table 1 (U10), with its output present
(spec/41_trigger_common.md R334), and action 1 only with `dmode` = 1 (spec/40_csr_access.md R295). -/
def actionLegal (cfg : Config) (v : ViewImpl) (dmode : Bool) (action : Nat) : Bool :=
  v.actions.contains action && definedActions.contains action
    && (action != 1 || (dmode && cfg.hasDebugMode))
    && (action != 8 || cfg.extOut0) && (action != 9 || cfg.extOut1)

/-- A `match` code the view accepts (U11). Code 1 needs a NAPOT range (R81, R450); that code 9, which negates it, needs one as well is
the model's (DESIGN CHOICE, log entry 61). -/
def matchLegal (v : ViewImpl) (napot : Bool) (op : Nat) : Bool :=
  v.matchOps.contains op && definedMatchOps.contains op && (napot || !(op == 1 || op == 9))

/-- A size code the view accepts, of those its table lists up to `top`; code 0 is always accepted (R296, U11). -/
def sizeLegal (v : ViewImpl) (top size : Nat) : Bool :=
  size == 0 || (v.sizes.contains size && decide (size ≤ top))

/-- The fields of a view hold codes the implementation accepts (R296). -/
def View.fieldsLegal (cfg : Config) (p : TrigImpl) (dmode : Bool) : View → Bool
  | .mcontrol f =>
    supportsType p 2 && actionLegal cfg p.mcontrol dmode f.action.toNat
      && matchLegal p.mcontrol (p.maskmax != 0) f.matchOp.toNat && sizeLegal p.mcontrol 9 f.size.toNat
  | .icount f => supportsType p 3 && actionLegal cfg p.icount dmode f.action.toNat
  | .itrigger f => supportsType p 4 && actionLegal cfg p.itrigger dmode f.action.toNat
  | .etrigger f => supportsType p 5 && actionLegal cfg p.etrigger dmode f.action.toNat
  | .mcontrol6 f =>
    supportsType p 6 && actionLegal cfg p.mcontrol6 dmode f.action.toNat
      && matchLegal p.mcontrol6 (p.maskmax6 != 0) f.matchOp.toNat && sizeLegal p.mcontrol6 6 f.size.toNat
  | .tmext f => supportsType p 7 && actionLegal cfg p.tmext dmode f.action.toNat
  | .disabled _ => hasDisabled p

/-- The bits of `tdata1` on their own are legal (R285, R290 to R296). -/
def Tdata1.fieldsLegal (cfg : Config) (p : TrigImpl) (t : Tdata1) : Bool := t.view.fieldsLegal cfg p t.dmode

/-! ## `tdata2` -/

/-- A physical address that is valid for the host, as a write with XLEN = 32 stores it: the XLEN-bit address is zero-extended
(spec/20_memory.md R203), but the write is sign-extended to DXLEN (spec/10_state.md R25). -/
def validNarrow (cfg : Config) (v : Word) : Bool :=
  cfg.narrowXlen && widen cfg.dxlen .x32 v == v && validAddr cfg (Xlen.trunc .x32 v)

/-- The value is a valid address, as the register holds it. -/
def isAddress (cfg : Config) (v : Word) : Bool := validAddr cfg v || validNarrow cfg v

/-- A value that `tdata2` can hold unless an exclusion says otherwise: 0, a valid address (spec/20_memory.md R202, R203), or one of
the implementation's values. -/
def holds (cfg : Config) (p : TrigImpl) (v : Word) : Bool := v == 0 || isAddress cfg v || inRanges p.tdata2Ranges v

/-- What a value of `tdata2` shows in XLEN bits is a valid address, a virtual one, which is sign-extended, or a physical one,
which is zero-extended (spec/20_memory.md R202, R203). -/
def validAt (cfg : Config) (x : Xlen) (v : Word) : Bool :=
  validAddr cfg (widen cfg.dxlen x v) || validAddr cfg (x.trunc v)

/-- A type 2 NAPOT value: its range is at most `2 ^ maskmax` bytes and leaves at least one bit to compare
(spec/42_memory_access_triggers.md R397). Only a trigger that checks keeps others out (U15). Both
conditions are judged on the DXLEN bits the register stores, whatever the XLEN of the write (DESIGN CHOICE, log entry 55). -/
def napotOk (cfg : Config) (p : TrigImpl) (v : Word) : Bool :=
  !p.napotChecked
    || match lowestZero cfg.dxlen.bits v with
       | some z => decide (z + 1 ≤ p.maskmax.toNat) && decide (z + 1 < cfg.dxlen.bits)
       | none => false

/-- A type 6 NAPOT value: all ranges up to `2 ^ maskmax6` bytes are supported (spec/44_mcontrol6.md R450, R451), judged on the
DXLEN bits the register stores, whatever the XLEN of the write (DESIGN CHOICE, log entry 55). -/
def napot6Ok (cfg : Config) (p : TrigImpl) (v : Word) : Bool :=
  match lowestZero cfg.dxlen.bits v with
  | some z => decide (z < p.maskmax6)
  | none => false

/-- The view accepts a match operation that is not NAPOT. -/
def plainMatch (v : ViewImpl) : Bool := v.matchOps.any (matchLegal v false)

/-- The view asks `tdata2` for a NAPOT range: `match` is 1 or 9. -/
def View.isNapot : View → Bool
  | .mcontrol f => f.matchOp == 1 || f.matchOp == 9
  | .mcontrol6 f => f.matchOp == 1 || f.matchOp == 9
  | .icount _ => false
  | .itrigger _ => false
  | .etrigger _ => false
  | .tmext _ => false
  | .disabled _ => false

/-- All ones with bit `maskmax6 - 1` clear: what a write of all ones to the `tdata2` of a type 6 trigger with `match` = 1
stores (R451), in DXLEN bits: with `maskmax6` above 32 a read with XLEN = 32 shows all ones (DESIGN CHOICE, log entry 55). -/
def napot6Largest (cfg : Config) (p : TrigImpl) : Word :=
  cfg.dxlen.allOnes &&& ~~~(1#64 <<< (p.maskmax6 - 1))

/-- What `tdata2` can hold at most while `tdata1` has this view (R297 to R299). R202 to R204 speak of unmasked address matches. That
a data match (`select` = 1) and a masked one (`match` 4, 5, 12, 13) start from the same set `holds` is no limit, because
`tdata2Ranges` can add any value to it and `tdata2Excluded` take any away (log entry 54). -/
def tdata2Base (cfg : Config) (p : TrigImpl) : View → Word → Bool
  | .mcontrol f, v => if (View.mcontrol f).isNapot then napotOk cfg p v else holds cfg p v
  | .mcontrol6 f, v => if (View.mcontrol6 f).isNapot then napot6Ok cfg p v else holds cfg p v
  | .icount _, v => holds cfg p v
  | .tmext _, v => holds cfg p v
  | .itrigger _, v => v &&& p.itriggerMask == v
  | .etrigger _, v => v &&& p.etriggerMask == v
  | .disabled _, v => holds cfg p v

/-- An address match without a mask: `select` 0 and `match` 0, 2, 3 or 8 (spec/20_memory.md R202). -/
def plainAddress (select : Bool) (op : BitVec 4) : Bool := !select && (op == 0 || op == 2 || op == 3 || op == 8)

/-- The valid addresses of the upper half of the addresses of XLEN = 32 as `tdata2` holds them, sign-extended (`validNarrow`): ranges
`(lowest, highest)`, empty where the first number is the greater. -/
def narrowRanges (cfg : Config) : List (Nat × Nat) :=
  if cfg.narrowXlen ∧ cfg.dxlen = .x64 then
    cfg.validRanges.map fun r => (max r.1 (2 ^ 31) + (2 ^ 64 - 2 ^ 32), min r.2 (2 ^ 32 - 1) + (2 ^ 64 - 2 ^ 32))
  else []

/-- The NAPOT range of the value contains a valid address (`napotMeetsAddress_iff`). The range goes from `v &&& (v + 1)`, the value with
the bits it does not compare cleared, to `v ||| (v + 1)`, the value with them set (spec/42_memory_access_triggers.md R397). -/
def napotMeetsAddress (cfg : Config) (v : Word) : Bool :=
  (cfg.validRanges ++ narrowRanges cfg).any fun r =>
    decide (max r.1 (v &&& (v + 1)).toNat ≤ min r.2 (v ||| (v + 1)).toNat)

/-- The spec requires that `tdata2` can hold the value while `tdata1` has this view: a valid address under an address match without
a mask (spec/20_memory.md R202); the implemented bits of types 4 and 5 (R299); 0 under type 6 (spec/44_mcontrol6.md R451 (a)); under
`match` = 1 of type 6 every range up to the largest (R450, R451 (b)), of which the model takes those with a valid address in them where
addresses are matched (DEDUCED, log entry 57). -/
def mustHold (cfg : Config) (p : TrigImpl) : View → Word → Bool
  | .mcontrol f, v => plainAddress f.select f.matchOp && isAddress cfg v
  | .mcontrol6 f, v =>
    v == 0 || (plainAddress f.select f.matchOp && isAddress cfg v)
      || (f.matchOp == 1 && (v == napot6Largest cfg p || f.select || napotMeetsAddress cfg v))
  | .icount _, _ => false
  | .tmext _, _ => false
  | .itrigger _, _ => true
  | .etrigger _, _ => true
  | .disabled _, _ => false

/-- The image whose bits an exclusion looks at. -/
def View.shapeImage (v : View) : Word := Tdata1.image64 ⟨false, v.shape⟩

/-- The implementation excludes the value under this view. -/
def excluded (p : TrigImpl) (view : View) (v : Word) : Bool :=
  p.tdata2Excluded.any fun r => view.shapeImage &&& r.mask == r.value && inRanges [r.range] v

/-- The bits of `type` in the DXLEN = 64 image (spec/10_state.md R29). -/
def typeMask : Word := 0xf000000000000000#64

/-- The implementation excludes the value under every configuration of a type. -/
def excludedByType (p : TrigImpl) (view : View) (v : Word) : Bool :=
  p.tdata2Excluded.any fun r => r.mask == typeMask && view.shapeImage &&& typeMask == r.value && inRanges [r.range] v

/-- Some configuration of the view's type, with its `select` and `match`, holds the value. -/
def heldByType (cfg : Config) (p : TrigImpl) (view : View) (v : Word) : Bool :=
  tdata2Base cfg p view v && (mustHold cfg p view v || !excludedByType p view v)

/-- Some `select` and some `match` that the type accepts hold the value, where `view` is the type's view with those two fields. -/
def heldByMatch (cfg : Config) (p : TrigImpl) (v : ViewImpl) (napot : Bool) (view : Bool → BitVec 4 → View) (w : Word) : Bool :=
  v.matchOps.any fun op =>
    matchLegal v napot op && [false, true].any fun sel => heldByType cfg p (view sel (BitVec.ofNat 4 op)) w

/-- The value is legal in `tdata2` under some configuration of some type the trigger supports: "If the trigger is disabled,
then this register can be written with any value supported by any of the trigger types supported by this trigger" (R298). -/
def tdata2LegalForSome (cfg : Config) (p : TrigImpl) (v : Word) : Bool :=
  (supportsType p 2 && heldByMatch cfg p p.mcontrol (p.maskmax != 0) (fun sel op => .mcontrol { select := sel, matchOp := op }) v)
    || (supportsType p 3 && heldByType cfg p (.icount {}) v)
    || (supportsType p 4 && heldByType cfg p (.itrigger {}) v)
    || (supportsType p 5 && heldByType cfg p (.etrigger {}) v)
    || (supportsType p 6
      && heldByMatch cfg p p.mcontrol6 (p.maskmax6 != 0) (fun sel op => .mcontrol6 { select := sel, matchOp := op }) v)
    || (supportsType p 7 && heldByType cfg p (.tmext {}) v)
    || (supportsType p 15 && heldByType cfg p (.disabled 0) v)

/-- The view's type supports a match operation that is not NAPOT. -/
def View.offersPlain (p : TrigImpl) : View → Bool
  | .mcontrol _ => plainMatch p.mcontrol
  | .mcontrol6 _ => plainMatch p.mcontrol6
  | .icount _ => false
  | .itrigger _ => false
  | .etrigger _ => false
  | .tmext _ => false
  | .disabled _ => false

/-- The trigger is in the state a write of 0 leaves it in: type 15, or its single type with every enabling bit clear where
the implementation disables it that way (R286, R287). A NAPOT match beside others keeps its own condition on `tdata2` even then
(spec/44_mcontrol6.md R450, R451). -/
def View.isDisabledForm (p : TrigImpl) (v : View) : Bool :=
  v.typ == 15
    || (!multiType p && p.disableKeepsType && v.enablesClear && !(v.isNapot && v.offersPlain p))

/-- `tdata2` may hold the value while `tdata1` has this view (R297 to R299). -/
def tdata2Legal (cfg : Config) (p : TrigImpl) (view : View) (v : Word) : Bool :=
  if view.isDisabledForm p then tdata2LegalForSome cfg p v
  else tdata2Base cfg p view v && (mustHold cfg p view v || !excluded p view v)

/-- The bits an itrigger or etrigger implements, where the value is stored masked (spec/46_itrigger_etrigger.md R493,
R498). -/
def tdata2Mask (p : TrigImpl) : View → Option Word
  | .itrigger _ => some p.itriggerMask
  | .etrigger _ => some p.etriggerMask
  | .mcontrol _ => none
  | .icount _ => none
  | .mcontrol6 _ => none
  | .tmext _ => none
  | .disabled _ => none

/-- The value asked for is all ones, of a type 6 trigger with `match` = 1 (R451 (b)). -/
def asksLargestNapot6 (cfg : Config) (view : View) (v : Word) : Bool :=
  match view with
  | .mcontrol6 f => f.matchOp == 1 && v == cfg.dxlen.allOnes
  | _ => false

/-- A written value of `tdata2` is an address, to which R204 applies: under an address match (spec/42_memory_access_triggers.md R411),
and while a trigger that supports those is disabled. A masked match counts as one (DESIGN CHOICE, log entry 54). -/
def View.asksAddress (p : TrigImpl) : View → Bool
  | .mcontrol f => !f.select
  | .mcontrol6 f => !f.select
  | .icount _ => false
  | .itrigger _ => false
  | .etrigger _ => false
  | .tmext _ => false
  | .disabled _ => supportsType p 2 || supportsType p 6

/-- A substitute for an unsupported `tdata2` value: legal, and if it is an address, an invalid one for an invalid one, both as XLEN
shows it and as the DXLEN-bit value that the register holds (spec/20_memory.md R204). -/
def tdata2SubstituteOk (cfg : Config) (p : TrigImpl) (view : View) (x : Xlen) (asked v : Word) : Bool :=
  tdata2Legal cfg p view v
    && (!view.asksAddress p || validAt cfg x asked || (!validAt cfg x v && !validAddr cfg v))

/-- The least value that passes the test, of those that have the bits of `v` above their low `k` bits. -/
def firstWord (ok : Word → Bool) : Nat → Word → Option Word
  | 0, v => if ok v then some v else none
  | k + 1, v =>
    match firstWord ok k v with
    | some w => some w
    | none => firstWord ok k (v ||| 1#64 <<< k)

/-- A value that passes the test: the first of the likely ones, else the least of `n` bits. The likely ones only spare the search, which
is exact: it answers none exactly if no value passes. -/
def someWord (ok : Word → Bool) (likely : List Word) (n : Nat) : Option Word :=
  match likely.find? ok with
  | some w => some w
  | none => firstWord ok n 0

/-- Numbers just above `n`: the bits of `n` above one place, 1 there, and 0 below. -/
def justAbove (n : Nat) : List Nat := (List.range 64).map fun c => (n >>> c ||| 1) <<< c

/-- Where invalid addresses that `tdata2` can hold are likely to be found: at 0, at the first address that XLEN = 32 sign-extends, at
the start of each range, and just above a range of valid addresses or of excluded values. -/
def likelyStarts (cfg : Config) (p : TrigImpl) : List Nat :=
  0 :: 0xffffffff80000000 :: (p.tdata2Ranges ++ cfg.validRanges).map Prod.fst
    ++ (cfg.validRanges.map Prod.snd ++ p.tdata2Excluded.map fun r => r.range.2).flatMap justAbove

/-- Likely invalid addresses, sign-extended and zero-extended. -/
def likelyInvalid (cfg : Config) (p : TrigImpl) (x : Xlen) : List Word :=
  (likelyStarts cfg p).flatMap fun n =>
    [widen cfg.dxlen x (BitVec.ofNat 64 n), widen cfg.dxlen .x32 (BitVec.ofNat 64 n), cfg.dxlen.trunc (BitVec.ofNat 64 n)]

/-- What an unsupported `tdata2` value becomes: what the implementation offers if that will do, else the value the register
has if that will do, else a value that will do. If none does, `tdata2` can hold no invalid address, and the implementation's offer
need only be legal; the old value stays if it is not (R204, R297, U16, U17, decision D18). -/
def tdata2Substitute (cfg : Config) (p : TrigImpl) (view : View) (x : Xlen) (old asked offered : Word) : Word :=
  match someWord (tdata2SubstituteOk cfg p view x asked) (offered :: old :: likelyInvalid cfg p x) cfg.dxlen.bits with
  | some v => v
  | none => if tdata2Legal cfg p view offered then offered else old

/-- The implementation takes a legal value for an unsupported one, for a reason of its own (R297, decision D18); never one that it must
hold, nor any while the trigger is disabled (R298). -/
def refusedTdata2 (cfg : Config) (p : TrigImpl) (i : Nat) (t1 : Tdata1) (old v : Word) : Bool :=
  p.mayRefuse && !t1.view.isDisabledForm p && !mustHold cfg p t1.view v && Config.warlRefusesTdata2 i t1.image64 old v

/-- `legalize_tdata2` of trigger `i` on a DXLEN-bit value, written with an effective XLEN (R297 to R299, R451, R493, R498). -/
def legalizeTdata2 (cfg : Config) (p : TrigImpl) (i : Nat) (t1 : Tdata1) (x : Xlen) (old v : Word) : Word :=
  match tdata2Mask p t1.view with
  | some mask => v &&& mask
  | none =>
    if tdata2Legal cfg p t1.view v && !refusedTdata2 cfg p i t1 old v then v
    else if asksLargestNapot6 cfg t1.view v then napot6Largest cfg p
    else tdata2Substitute cfg p t1.view x old v (cfg.dxlen.trunc (Config.warlTdata2 i t1.image64 old v))

/-! ## `tdata3` -/

/-- The trigger implements `textra` under type `n` of 2 to 6 (R274, R300). -/
def hasTextraFor (p : TrigImpl) (n : Nat) : Bool := !p.noTextra.contains n

/-- The view gives `tdata3` a use: types 2 to 6 that implement `textra` (spec/11_state_trigger_types.md R190), a type 7 trigger that
does not hard-wire it (R300), and a disabled trigger that supports one of those (R298). -/
def usesTdata3 (p : TrigImpl) : View → Bool
  | .mcontrol _ => hasTextraFor p 2
  | .icount _ => hasTextraFor p 3
  | .itrigger _ => hasTextraFor p 4
  | .etrigger _ => hasTextraFor p 5
  | .mcontrol6 _ => hasTextraFor p 6
  | .tmext _ => !p.tmextTdata3Zero
  | .disabled _ =>
    ([2, 3, 4, 5, 6].any fun n => supportsType p n && hasTextraFor p n) || (supportsType p 7 && !p.tmextTdata3Zero)

/-- `svalue` and `sselect` are tied to 0 (R533). -/
def supervisorTied (cfg : Config) (p : TrigImpl) : Bool := !cfg.hasS && p.tiedWithoutS

/-- `tdata3` with every tied bit 0 (R300, R533); a register that does not exist or is hard-wired holds 0. -/
def Textra.normal (cfg : Config) (p : TrigImpl) (view : View) (t : Textra) : Textra :=
  if cfg.hasTdata3 && usesTdata3 p view then
    let t := if cfg.dxlen = .x32 then t.low32 else t
    { mhvalue := t.mhvalue &&& BitVec.ofNat 13 (2 ^ p.mhvalueBits - 1)
      mhselect := t.mhselect
      sbytemask := t.sbytemask &&& BitVec.ofNat 4 (2 ^ p.sbytemaskBits - 1)
      svalue := if supervisorTied cfg p then 0 else t.svalue &&& BitVec.ofNat 32 (2 ^ p.svalueBits - 1)
      sselect := if supervisorTied cfg p then 0 else t.sselect }
  else {}

/-- A legal `mhselect`: 0, or one the trigger supports, never 3 or 7, and without the H extension only 4
(spec/48_textra.md R529). -/
def mhselectLegal (cfg : Config) (p : TrigImpl) (v : BitVec 3) : Bool :=
  v == 0 || (p.mhselects.contains v.toNat && v != 3 && v != 7 && (cfg.hasH || v == 4))

/-- A legal `sselect`: 0, or one the trigger supports, never 3 (R530). -/
def sselectLegal (p : TrigImpl) (v : BitVec 2) : Bool :=
  v == 0 || (p.sselects.contains v.toNat && v != 3)

/-- Both selects are legal. -/
def Textra.selectsLegal (cfg : Config) (p : TrigImpl) (t : Textra) : Bool :=
  mhselectLegal cfg p t.mhselect && sselectLegal p t.sselect

/-- What `tdata3` can hold at most while `tdata1` has this view: every tied bit 0, both selects legal. -/
def tdata3Base (cfg : Config) (p : TrigImpl) (view : View) (t : Textra) : Bool :=
  t.normal cfg p view == t && t.selectsLegal cfg p

/-- The implementation excludes the value under this view; never 0 (R300). -/
def excludedTdata3 (p : TrigImpl) (view : View) (t : Textra) : Bool :=
  t != {} && p.tdata3Excluded.any fun r => view.shapeImage &&& r.mask == r.value && t.image64 &&& r.fieldMask == r.fieldValue

/-- The implementation excludes the value under every configuration of a type; never 0. -/
def excludedTdata3ByType (p : TrigImpl) (view : View) (t : Textra) : Bool :=
  t != {} && p.tdata3Excluded.any fun r =>
    r.mask == typeMask && view.shapeImage &&& typeMask == r.value && t.image64 &&& r.fieldMask == r.fieldValue

/-- One view of each type. -/
def typeViews : List View := [.mcontrol {}, .icount {}, .itrigger {}, .etrigger {}, .mcontrol6 {}, .tmext {}, .disabled 0]

/-- The value is legal in `tdata3` under some configuration of some type the trigger supports (R298). -/
def tdata3LegalForSome (cfg : Config) (p : TrigImpl) (t : Textra) : Bool :=
  typeViews.any fun w => supportsType p w.typ && tdata3Base cfg p w t && !excludedTdata3ByType p w t

/-- `tdata3` may hold the value while `tdata1` has this view (R297, R298, R300). -/
def tdata3Legal (cfg : Config) (p : TrigImpl) (view : View) (t : Textra) : Bool :=
  if view.isDisabledForm p then tdata3LegalForSome cfg p t
  else tdata3Base cfg p view t && !excludedTdata3 p view t

/-- The implementation takes a legal value for an unsupported one, for a reason of its own (R297, decision D18); never 0, nor any while
the trigger is disabled (R298). -/
def refusedTdata3 (p : TrigImpl) (i : Nat) (t1 : Tdata1) (old v : Textra) : Bool :=
  p.mayRefuse && !t1.view.isDisabledForm p && v != {} && Config.warlRefusesTdata3 i t1.image64 old.image64 v.image64

/-- The value with the unsupported selects 0 ("ignore"). -/
def Textra.withLegalSelects (cfg : Config) (p : TrigImpl) (t : Textra) : Textra :=
  { t with
    mhselect := if mhselectLegal cfg p t.mhselect then t.mhselect else 0
    sselect := if sselectLegal p t.sselect then t.sselect else 0 }

/-- What an unsupported value of `tdata3` becomes: what the implementation offers if that is legal, else the value with the unsupported
selects 0 if that is, else 0, which every type can hold. -/
def tdata3Substitute (cfg : Config) (p : TrigImpl) (view : View) (asked offered : Textra) : Textra :=
  ([offered.normal cfg p view, asked.withLegalSelects cfg p].find? (tdata3Legal cfg p view)).getD {}

/-- `legalize_tdata3` of trigger `i`, written with an effective XLEN (R297, R298, R300): the tied bits are 0. -/
def legalizeTdata3 (cfg : Config) (p : TrigImpl) (i : Nat) (t1 : Tdata1) (x : Xlen) (old v : Textra) : Textra :=
  let n := v.normal cfg p t1.view
  if tdata3Legal cfg p t1.view n && !refusedTdata3 p i t1 old n then n
  else tdata3Substitute cfg p t1.view n (Textra.ofImage x (Config.warlTdata3 i t1.image64 old.image64 v.image64))

/-! ## `tdata1` -/

/-- The implementation rejects the configuration, whatever its status bits (R282, R294, U26). -/
def rejected (p : TrigImpl) (t : Tdata1) : Bool :=
  p.rejects.any fun r => t.unflagged.image64 &&& r.1 == r.2

/-- `tdata1` may be stored in place of `old`, while the trigger's `tdata2` and `tdata3` are these (R283, R285). The configuration
that the trigger holds is never rejected, so that its status bits can be written at any time (R294). -/
def tdata1Supported (cfg : Config) (p : TrigImpl) (old : Tdata1) (t2 : Word) (t3 : Textra) (t : Tdata1) : Bool :=
  t.fieldsLegal cfg p && tdata2Legal cfg p t.view t2 && tdata3Legal cfg p t.view t3
    && (!rejected p t || t.unflagged == old.unflagged)

/-- A code of a WARL field that every configuration may hold: 0 where it is legal, else the first legal one listed (DESIGN CHOICE
where several are legal, log entry 12). -/
def firstLegal (legal : Nat → Bool) (codes : List Nat) : Nat :=
  if legal 0 then 0 else (codes.find? legal).getD 0

/-- The `action` code of a trigger that nothing has configured, legal with `dmode` = 0. -/
def blankAction (cfg : Config) (v : ViewImpl) : Nat := firstLegal (actionLegal cfg v false) v.actions

/-- The `match` code of a trigger that nothing has configured: NAPOT only where nothing else is supported (DESIGN CHOICE, log entry
12). -/
def blankMatch (v : ViewImpl) (napot : Bool) : Nat :=
  if plainMatch v then firstLegal (matchLegal v false) v.matchOps else firstLegal (matchLegal v napot) v.matchOps

/-- A view of type `n` with every field 0 but those whose 0 is not supported; type 15 for any type without a view. It is what a
single-type trigger is disabled to (R287) and what a trigger resets to (spec/70_reset_and_hazards.md R603). A field whose 0 is not
supported "resets to its only legal value" (R604 (c)). Where `action` or `match` has several legal codes and 0 is not one, the
view holds the first one listed, for `match` one that is not NAPOT if any is, after reset and after a write of 0 alike (DESIGN
CHOICE, log entry 12). -/
def blankView (cfg : Config) (p : TrigImpl) (n : Nat) (count : BitVec 14) (data : BitVec 59) : View :=
  View.normal cfg p <| match n with
    | 2 => .mcontrol { action := BitVec.ofNat 4 (blankAction cfg p.mcontrol),
                       matchOp := BitVec.ofNat 4 (blankMatch p.mcontrol (p.maskmax != 0)) }
    | 3 => .icount { action := BitVec.ofNat 6 (blankAction cfg p.icount), count := count }
    | 4 => .itrigger { action := BitVec.ofNat 6 (blankAction cfg p.itrigger) }
    | 5 => .etrigger { action := BitVec.ofNat 6 (blankAction cfg p.etrigger) }
    | 6 => .mcontrol6 { action := BitVec.ofNat 4 (blankAction cfg p.mcontrol6),
                        matchOp := BitVec.ofNat 4 (blankMatch p.mcontrol6 (p.maskmax6 != 0)) }
    | 7 => .tmext { action := BitVec.ofNat 6 (blankAction cfg p.tmext) }
    | _ => .disabled data

/-- The single type of a trigger that supports one type. -/
def onlyType (p : TrigImpl) : Nat := ((List.range 16).find? fun n => p.info.getLsbD n).getD 15

/-- `disabled_value(i)` of R287: type 15, or for a trigger of a single type that keeps it, that type with every enabling
bit clear. -/
def disabledValue (cfg : Config) (p : TrigImpl) : Tdata1 :=
  ⟨false, if multiType p || !p.disableKeepsType then .disabled (normalData cfg p 0) else blankView cfg p (onlyType p) 0 0⟩

/-- The configuration is one of size 0 that the trigger always supports (R296). -/
def alwaysSupported (p : TrigImpl) (t : Tdata1) : Bool :=
  p.anySize.any fun w => (Tdata1.ofImage64 w).map Tdata1.unflagged == some t.unflagged

/-- The implementation takes the write as one of an unsupported configuration, for a reason of its own (R282, R285). It never refuses
the configuration that the trigger holds, whose status bits can be written at any time (R294), nor the one of size 0 that it must
support (R296). -/
def refused (p : TrigImpl) (i : Nat) (old : Tdata1) (t2 : Word) (t3 : Textra) (v : Word) (debug : Bool) (t : Tdata1) : Bool :=
  p.mayRefuse && t.unflagged != old.unflagged && !alwaysSupported p t
    && Config.warlRefuses i old.image64 v t2 t3.image64 debug

/-- What an unsupported write to `tdata1` stores: what the implementation offers if it is supported, its `dmode` included where
the writer is Debug Mode (R288), else a disabled trigger with the `dmode` asked for (R282, R285, U26). -/
def tdata1Substitute (cfg : Config) (p : TrigImpl) (old : Tdata1) (t2 : Word) (t3 : Textra) (debug dmode : Bool)
    (offered : Option Tdata1) : Tdata1 :=
  let dis : Tdata1 := { disabledValue cfg p with dmode := dmode && cfg.hasDebugMode }
  match offered with
  | some t =>
    let n := Tdata1.normal cfg p { t with dmode := debug && t.dmode }
    if tdata1Supported cfg p old t2 t3 n then n else dis
  | none => dis

/-- `legalize_tdata1` of trigger `i`, whose registers hold `old`, `t2` and `t3`, for a written image `v` that is not 0
(R285). `debug` says that the writer is Debug Mode. What is asked for is stored, with its hard-wired bits, if it is supported and the
implementation does not refuse it. -/
def legalizeTdata1 (cfg : Config) (p : TrigImpl) (i : Nat) (old : Tdata1) (t2 : Word) (t3 : Textra) (x : Xlen) (v : Word)
    (debug : Bool) : Tdata1 :=
  let offered := Tdata1.ofImage x (Config.warlTdata1 i old.image64 v t2 t3.image64 debug)
  let dmode := v &&& dmodeBit x != 0
  match Tdata1.ofImage x v with
  | some asked =>
    let n := asked.normal cfg p
    if tdata1Supported cfg p old t2 t3 n && !refused p i old t2 t3 v debug n then n
    else tdata1Substitute cfg p old t2 t3 debug dmode offered
  | none => tdata1Substitute cfg p old t2 t3 debug dmode offered

/-- `tdata1` of a trigger after reset (spec/70_reset_and_hazards.md R601, R603, R604): its reset type, `dmode` 0, every
field of its view 0 but `maskmax` and `count` = 1. -/
def resetTdata1 (cfg : Config) (p : TrigImpl) : Tdata1 := ⟨false, blankView cfg p p.resetType 1 p.resetData⟩

end Sys2Proof.Machine
end

