-- ==== Sys2Proof/Machine/State.lean ====
section
/-! DEFINITION. The state of the machine, plain data: the Trigger Module's own state (spec/10_state.md R20, R62), the state
of the host hart that its rules read or that its exceptions write (R60, R63, R64, spec/60_exceptions.md R502, R554, R565),
and what the host hart presents next (spec/00_scope.md R12, spec/92_eei_decisions.md D1).

THE HOST HART IS A PARAMETER. The spec gives the hart no program memory, no loads and stores, no traps of its own: it says
that the hart presents the Trigger Module with events, one instruction at a time, in program order. `feed` is that
presentation, as a list of what the hart does next; a step reads its head. An instruction's address and mode are not in the
list: they are the machine's own `pc` and `mode`, so that what follows a trap is presented at the handler. A statement
about every state is a statement about every host hart. -/

namespace Sys2Proof.Machine

/-- The privilege modes, and Debug Mode (R11, spec/60_exceptions.md R585). `s` is S/HS-mode. -/
inductive Mode where
  | m
  | s
  | u
  | vs
  | vu
  | debug
  deriving DecidableEq, Repr

/-- The modes a trap can be taken to (spec/60_exceptions.md R575). -/
inductive Handler where
  | m
  | s
  | vs
  deriving DecidableEq, Repr

/-- The effective XLEN of each mode: "On systems where XLEN values can differ between modes" (R24). -/
structure ModeXlens where
  m : Xlen := .x32
  s : Xlen := .x32
  u : Xlen := .x32
  vs : Xlen := .x32
  vu : Xlen := .x32
  debug : Xlen := .x32
  deriving DecidableEq, Repr

/-- The host state that the Trigger Module's rules read and never write (R60), but for the mode. The interrupt enables are
cleared by the hart on a trap (spec/46_itrigger_etrigger.md R504). -/
structure HostCsrs where
  /-- `MIE` in `mstatus` (R60 (b)). -/
  mie : Bool := false
  /-- `SIE` in `sstatus`. -/
  sie : Bool := false
  /-- `SIE` in `vsstatus` (90_conflicts.md C3). -/
  vssie : Bool := false
  /-- `medeleg`: bit `n` delegates exception code `n` (R60 (c), R575). -/
  medeleg : Word := 0
  /-- `hedeleg`. -/
  hedeleg : Word := 0
  /-- The VMID field of `hgatp` (R60 (d)). -/
  vmid : Nat := 0
  /-- The ASID field of `satp` (R60 (e)). -/
  asid : Nat := 0
  /-- The ASID field of `vsatp`. -/
  vsasid : Nat := 0
  /-- Bit 57 of `mstateen0` (R60 (f)). -/
  mstateen57 : Bool := false
  /-- Bit 57 of `hstateen0`. -/
  hstateen57 : Bool := false
  /-- The effective XLEN, by mode (R60 (g), R24); DXLEN bounds each (`State.xlenIn`). -/
  xlens : ModeXlens := {}
  deriving DecidableEq, Repr

/-- What a trap records for the mode it is taken to: the exception program counter, the cause and the trap value
(spec/60_exceptions.md R552 to R554, R578). -/
structure TrapRegs where
  epc : Word := 0
  interrupt : Bool := false
  code : Nat := 0
  tval : Word := 0
  deriving DecidableEq, Repr

/-- The cache-block operations by name (spec/42_memory_access_triggers.md R390). -/
inductive CacheOp where
  | clean
  | flush
  | inval
  | zero
  | prefetch
  deriving DecidableEq, Repr

/-- The kinds of explicit access an instruction performs (spec/42_memory_access_triggers.md R375 to R384). An AMO performs an
`amoLoad` and then an `amoStore`. -/
inductive AccessKind where
  | load
  | store
  | lr
  | scSuccess
  | scFailure
  | amoLoad
  | amoStore
  | cacheOp (op : CacheOp)
  deriving DecidableEq, Repr

/-- One explicit access, or one cache operation, of a host instruction (R12, R382). -/
structure Access where
  kind : AccessKind
  /-- The lowest virtual address, or the effective address of a cache operation. -/
  va : Word
  /-- How wide the host's addresses are; narrower ones are extended to XLEN bits (spec/20_memory.md R203). -/
  addrBits : Nat := 64
  /-- Address translation is off: the address is a physical one, zero-extended (R203). -/
  physical : Bool := false
  /-- The size in bits. -/
  nbits : Nat := 32
  /-- The data value loaded or stored, as a number (spec/20_memory.md R208). -/
  data : BitVec 128 := 0
  /-- The destination register of a load (R380). -/
  rd : Reg := 0
  /-- `perfect(e)`: the Trigger Module observes the access fully (spec/44_mcontrol6.md R446). -/
  perfect : Bool := true
  /-- The exception the hart raises for the access, of ranks 7 to 10 (spec/60_exceptions.md R555). -/
  fault : Option Nat := none
  /-- The general registers the hart writes as part of the access. -/
  regs : List (Reg × Word) := []
  deriving DecidableEq, Repr

/-- One instruction the hart executes at `pc` in `mode` (R12): its encoding, and what it does if it is none of the six CSR
instructions. -/
structure HostInsn where
  /-- The encoding as one number (spec/20_memory.md R208). -/
  insn : BitVec 128
  /-- The length in bits. -/
  ilen : Nat := 32
  /-- How wide the host's instruction addresses are (spec/20_memory.md R203). -/
  addrBits : Nat := 64
  /-- Address translation is off for the fetch (R203). -/
  physical : Bool := false
  /-- `perfect(e)` of the `Exec` event. -/
  perfect : Bool := true
  /-- The exception of ranks 3 and 4 that fetching it raises. -/
  fetchFault : Option Nat := none
  /-- The exception of rank 6 that it raises (illegal instruction, environment call and the like). -/
  rank6Fault : Option Nat := none
  /-- Its accesses, in its own order. -/
  accesses : List Access := []
  /-- It may be partially executed (spec/42_memory_access_triggers.md R372). -/
  partialAllowed : Bool := true
  /-- It is an `mret` (R12 `Mret()`). -/
  isMret : Bool := false
  /-- The general registers it writes as it retires. -/
  regs : List (Reg × Word) := []
  /-- Where execution goes on; the next instruction in memory if none. -/
  jump : Option Word := none
  /-- The mode it leaves the hart in (a return, or entry to Debug Mode), if it changes it. -/
  newMode : Option Mode := none
  /-- The host state it leaves, if it changes it. -/
  newHost : Option HostCsrs := none
  deriving DecidableEq, Repr

/-- What the host hart and the platform present next (R12). External signals that stand together are delivered together, at the
boundary before the next other item (spec/60_exceptions.md R561). -/
inductive HostItem where
  /-- The hart executes the instruction at `pc`. -/
  | insn (h : HostInsn)
  /-- The hart takes an interrupt, or a non-maskable interrupt, to the given mode. -/
  | interrupt (code : Nat) (nmi : Bool) (target : Handler)
  /-- TM external trigger input `k` signals (`ExtIn`). -/
  | extIn (k : Nat)
  /-- An attached interrupt controller signals a trigger (`IntCtl`). -/
  | intCtl
  /-- The hart leaves Debug Mode (decision D15). -/
  | resume (mode : Mode) (pc : Word)
  /-- The host state of R60 changes other than by an instruction shown here. -/
  | host (h : HostCsrs)
  deriving DecidableEq, Repr

/-- The events types 2 and 6 watch, with what they carry (R12). The mode of an event is the hart's. `physical` says that the
address is a physical one (spec/20_memory.md R203). -/
inductive Event where
  | exec (pc : Word) (insn : BitVec 128) (ilen : Nat) (perfect : Bool) (physical : Bool := false)
  | load (va : Word) (nbits : Nat) (data : BitVec 128) (rd : Reg) (amo perfect : Bool) (physical : Bool := false)
  | store (va : Word) (nbits : Nat) (data : BitVec 128) (amo perfect : Bool) (physical : Bool := false)
  | cacheOp (ea : Word) (perfect : Bool) (physical : Bool := false)
  deriving DecidableEq, Repr

/-- The ranks of Table 2 at which an address or data trigger can fire before its instruction (spec/60_exceptions.md R555). -/
inductive Rank where
  | executeAddress
  | executeData
  | accessBefore
  | loadData
  deriving DecidableEq, Repr

/-- An outcome handed to the host hart or the platform (R61). -/
inductive Signal where
  | illegalInstruction
  | virtualInstruction
  | breakpoint (tval : Word)
  | enterDebug (dpc : Word)
  | traceOn
  | traceOff
  | traceNotify
  | extOut (k : Nat)
  deriving DecidableEq, Repr

/-- One trigger: its registers (R22), its held external action (R62 (b)), and its parameters. -/
structure Trigger where
  impl : TrigImpl
  tdata1 : Tdata1
  tdata2 : Word := 0
  tdata3 : Textra := {}
  /-- `ext_held[i]` (spec/47_tmexttrigger.md R516). -/
  extHeld : Bool := false
  /-- The last write to `tdata3` was sign-extended from 32 bits to DXLEN, as R25 has it, under a type without `textra`
  (spec/40_csr_access.md R284). -/
  tdata3Sext : Bool := false
  deriving DecidableEq, Repr

/-- A trigger whose own conditions an event of the instruction in progress has met (spec/41_trigger_common.md R347), with the
address `tval` would report (spec/60_exceptions.md R553), whether the event was perfectly observed, and the rank at which it
matched (R556). -/
structure Matched where
  trig : Nat
  addr : Word
  perfect : Bool
  rank : Rank
  deriving DecidableEq, Repr

/-- A fire that is due: the trigger, its `tdata1` as it was when it matched, the values `tval` may take, what `uncertain`
becomes, and when it fires. -/
structure Due where
  trig : Nat
  tdata1 : Tdata1
  tvals : List Word := [0]
  uncertain : Bool := false
  time : FireTime := .immediatelyAfter
  /-- It may fire at any later instruction boundary (R560). -/
  delayed : Bool := false
  /-- An instruction has retired since the one it matched. -/
  aged : Bool := false
  deriving DecidableEq, Repr

/-- The machine. -/
structure State where
  /-- The implementation's parameters (spec/00_scope.md R8); no step changes them. -/
  cfg : Config
  /-- `tselect` (R26). -/
  tselect : Word
  /-- The triggers, `NTRIG` of them (R20, R22). -/
  trigs : List Trigger
  /-- `tcontrol.mte` (R41). -/
  mte : Bool
  /-- `tcontrol.mpte` (R40). -/
  mpte : Bool
  /-- The `scontext` value, also `mscontext` (R45, R49). -/
  scontext : Word
  /-- The `mcontext` value, also `hcontext` (R48, R43). -/
  mcontext : Word
  /-- Hidden: triggers that have matched and not yet fired (R62 (c)); also those that fire at the next boundary. -/
  waiting : List Due
  /-- Hidden, within one instruction: the triggers matched so far (R62, R347). Empty at every instruction boundary. -/
  matched : List Matched
  /-- Hidden, within one instruction: the fires due once it has retired (spec/42_memory_access_triggers.md R408). -/
  dueAfter : List Due
  /-- Hidden, within one access: the chains complete before it that have the priority of a load data trigger and fire at its
  rank 11 (spec/60_exceptions.md R556). -/
  deferred : List Due
  /-- The outcomes handed out so far, oldest first (R61). -/
  outbox : List Signal
  /-- The host hart's general registers (R63); register 0 is not read from here. -/
  x : Vector Word 32
  /-- The host hart's program counter (R64). -/
  pc : Word
  /-- The hart's current mode (R60 (a)). -/
  mode : Mode
  /-- The rest of R60. -/
  host : HostCsrs
  /-- What the last trap to M-mode recorded (`mepc`, `mcause`, `mtval`). -/
  trapM : TrapRegs
  /-- What the last trap to S-mode recorded. -/
  trapS : TrapRegs
  /-- What the last trap to VS-mode recorded. -/
  trapVS : TrapRegs
  /-- `dpc` (spec/41_trigger_common.md R332). -/
  dpc : Word
  /-- The model's own: what the host presents next. -/
  feed : List HostItem
  /-- The model's own: how many times a free value has been asked for. -/
  draws : Nat
  deriving DecidableEq, Repr

/-- The Trigger Module stops no machine: "The source describes no condition under which the TM or the hart halts other than
entry to Debug Mode, which is an outcome" (spec/93_implementation_defined.md part 1). So there is no fault. Safe. -/
inductive Fault where
  deriving DecidableEq, Repr

/-- Why a step has no next state. No instruction's meaning answers with one of these: they come from the evaluation of
triggers that the source gives no behaviour. -/
inductive Refusal where
  /-- Raised by exec for an instruction that has no meaning yet; no arm raises it. Safe. -/
  | notModelled (mnemonic : String)
  /-- Raised by a step in which a `match` = 1 or 9 trigger is evaluated whose `tdata2` asks for a NAPOT range that does not
  exist or is not supported (U15, spec/42_memory_access_triggers.md R397). Safe. -/
  | undefinedNapot (trigger : Nat)
  /-- Raised by a step in which a chain that a trigger of another type continues is evaluated with all earlier members
  matched (U7, spec/41_trigger_common.md R349, decision D28). Safe. -/
  | mixedChain (trigger : Nat)
  /-- Raised by a step in which an action 0 and an action 1 trigger fire together, both actions take place and Debug Mode
  entry comes first (U2, spec/60_exceptions.md R558, decision D12). Safe. -/
  | debugBeforeBreakpoint
  deriving DecidableEq, Repr

/-- A trigger after reset (spec/70_reset_and_hazards.md R601 to R605). `tdata2` holds the legal
value that the implementation gives it, which R602 leaves open (log entry 1). -/
def resetTrigger (cfg : Config) (p : TrigImpl) : Trigger where
  impl := p
  tdata1 := resetTdata1 cfg p
  tdata2 := p.resetTdata2

/-- The machine right after reset, for an implementation. The host hart's own state is 0, M-mode and all interrupts masked
(DESIGN CHOICE, log entry 2: R606 leaves it to the hart). -/
def State.resetWith (cfg : Config) (impls : List TrigImpl) : State where
  cfg := cfg
  tselect := cfg.tselectReset
  trigs := impls.map (resetTrigger cfg)
  mte := false
  mpte := false
  scontext := 0
  mcontext := 0
  waiting := []
  matched := []
  dueAfter := []
  deferred := []
  outbox := []
  x := Vector.replicate 32 0
  pc := 0
  mode := .m
  host := { xlens := ⟨cfg.dxlen, cfg.dxlen, cfg.dxlen, cfg.dxlen, cfg.dxlen, cfg.dxlen⟩ }
  trapM := {}
  trapS := {}
  trapVS := {}
  dpc := 0
  feed := []
  draws := 0

/-- The machine right after reset, in the default configuration of spec/95_test_vectors.md. -/
def State.reset : State := State.resetWith Config.default TrigImpl.defaults

end Sys2Proof.Machine
end

