-- ==== Sys2Proof/Machine/Update.lean ====
section
/-! DEFINITION. The updates of State by name. Every operation changes the state through these, so that a lemma about one
field of one of them (Laws/State.lean) is all a later proof needs. -/

namespace Sys2Proof.Machine

/-- A free value has been asked for: the next question is another one. -/
def State.tick (s : State) : State := { s with draws := s.draws + 1 }

/-- The program counter, an XLEN-bit value. -/
def State.setPc (s : State) (v : Word) : State := { s with pc := v }

/-- The mode. -/
def State.setMode (s : State) (md : Mode) : State := { s with mode := md }

/-- The host state of R60. -/
def State.setHost (s : State) (h : HostCsrs) : State := { s with host := h }

/-- The general registers. -/
def State.setRegs (s : State) (x : Vector Word 32) : State := { s with x := x }

/-- `dpc`. -/
def State.setDpc (s : State) (v : Word) : State := { s with dpc := v }

/-- `tselect`. -/
def State.setSelect (s : State) (v : Word) : State := { s with tselect := v }

/-- The triggers. -/
def State.setTrigs (s : State) (ts : List Trigger) : State := { s with trigs := ts }

/-- `tcontrol`. -/
def State.setTcontrol (s : State) (mte mpte : Bool) : State := { s with mte := mte, mpte := mpte }

/-- The `scontext` value. -/
def State.setScontext (s : State) (v : Word) : State := { s with scontext := v }

/-- The `mcontext` value. -/
def State.setMcontext (s : State) (v : Word) : State := { s with mcontext := v }

/-- The fires that are due. -/
def State.setWaiting (s : State) (w : List Due) : State := { s with waiting := w }

/-- The sets kept within one instruction. -/
def State.setInProgress (s : State) (ms : List Matched) (ds : List Due) : State := { s with matched := ms, dueAfter := ds }

/-- The chains that wait for rank 11 of the access in progress. -/
def State.setDeferred (s : State) (ds : List Due) : State := { s with deferred := ds }

/-- Hand outcomes to the host hart or the platform (R61). -/
def State.emit (s : State) (o : List Signal) : State := { s with outbox := s.outbox ++ o }

/-- What the host presents next. -/
def State.setFeed (s : State) (f : List HostItem) : State := { s with feed := f }

/-- What a trap to a mode records. -/
def State.setTrapRegs (s : State) (h : Handler) (r : TrapRegs) : State :=
  match h with
  | .m => { s with trapM := r }
  | .s => { s with trapS := r }
  | .vs => { s with trapVS := r }

/-- What the last trap to a mode recorded. -/
def State.trapRegs (s : State) (h : Handler) : TrapRegs :=
  match h with
  | .m => s.trapM
  | .s => s.trapS
  | .vs => s.trapVS

/-- The effective XLEN of a mode, as the host has set it. -/
def ModeXlens.of (x : ModeXlens) : Mode → Xlen
  | .m => x.m
  | .s => x.s
  | .u => x.u
  | .vs => x.vs
  | .vu => x.vu
  | .debug => x.debug

/-- The effective XLEN of a mode, which is at most DXLEN, and DXLEN where no mode has a narrower one (spec/00_scope.md R8,
spec/10_state.md R24). -/
def State.xlenIn (s : State) (md : Mode) : Xlen :=
  match s.cfg.dxlen with
  | .x32 => .x32
  | .x64 => if s.cfg.narrowXlen then s.host.xlens.of md else .x64

/-- The effective XLEN in the current mode. -/
def State.xlen (s : State) : Xlen := s.xlenIn s.mode

/-- Trigger `i` replaced by `f` of it. -/
def State.modifyTrig (s : State) (i : Nat) (f : Trigger → Trigger) : State :=
  s.setTrigs (s.trigs.mapIdx fun j t => if j = i then f t else t)

end Sys2Proof.Machine
end

