-- ==== Sys2Proof/Machine/Flags.lean ====
section
/-! DEFINITION. The status bits hardware sets (spec/10_state.md R65): `hit`, `hit1`/`hit0`, `uncertain`, `pending`, `count`,
and the enables a hard-wired icount clears. -/

namespace Sys2Proof.Machine

/-- The code of a firing time in `{hit1, hit0}` (spec/11_state_trigger_types.md R105). -/
def FireTime.code : FireTime → BitVec 2
  | .before => 1
  | .after => 2
  | .immediatelyAfter => 3

/-- What firing does to a type 2 trigger: `hit` (spec/41_trigger_common.md R341). A status bit that hardware sets is no "modification"
of the register that would clear the bits XLEN = 32 cannot reach (here `sizehi`, spec/10_state.md R24): only a CSR write is (DESIGN
CHOICE, log entry 58). -/
def Mcontrol.fired (p : TrigImpl) (f : Mcontrol) : Mcontrol := { f with hit := f.hit || p.mcontrol.hit }

/-- What firing does to a type 6 trigger: `{hit1, hit0}` is overwritten with the code of the firing time, and `uncertain`
updated (spec/44_mcontrol6.md R444, R446). -/
def Mcontrol6.fired (p : TrigImpl) (time : FireTime) (uncertain : Bool) (f : Mcontrol6) : Mcontrol6 :=
  { f with
    hit0 := (FireTime.code time).getLsbD 0 && p.mcontrol6.hit
    hit1 := (FireTime.code time).getLsbD 1 && p.mcontrol6.hit1
    uncertain := uncertain && p.uncertain }

/-- What firing does to a type 3 trigger: `pending` is cleared, `hit` set, and if `count` is hard-wired to 1 every enable
cleared (spec/45_icount.md R478, R479). -/
def Icount.fired (p : TrigImpl) (f : Icount) : Icount :=
  let f := { f with pending := false, hit := f.hit || p.icount.hit }
  if p.countHardwired then { f with m := false, s := false, u := false, vs := false, vu := false } else f

/-- What matching and firing do to a type 4 trigger: `hit` (R341). -/
def Itrigger.fired (p : TrigImpl) (f : Itrigger) : Itrigger := { f with hit := f.hit || p.itrigger.hit }

/-- What matching and firing do to a type 5 trigger: `hit` (R341). -/
def Etrigger.fired (p : TrigImpl) (f : Etrigger) : Etrigger := { f with hit := f.hit || p.etrigger.hit }

/-- What matching and firing do to a type 7 trigger: `hit` (R341). -/
def Tmext.fired (p : TrigImpl) (f : Tmext) : Tmext := { f with hit := f.hit || p.tmext.hit }

/-- The state change of a fire on the trigger's own `tdata1` (spec/41_trigger_common.md R336). -/
def View.fired (p : TrigImpl) (time : FireTime) (uncertain : Bool) : View → View
  | .mcontrol f => .mcontrol (f.fired p)
  | .icount f => .icount (f.fired p)
  | .itrigger f => .itrigger (f.fired p)
  | .etrigger f => .etrigger (f.fired p)
  | .mcontrol6 f => .mcontrol6 (f.fired p time uncertain)
  | .tmext f => .tmext (f.fired p)
  | .disabled data => .disabled data

/-- The time a fire reports: one that was held back until further instructions had retired is no longer immediately after its
own (spec/11_state_trigger_types.md R105). -/
def Due.firedAt (d : Due) : FireTime := if d.time = .immediatelyAfter ∧ d.aged = true then .after else d.time

/-- The trigger of a due fire, with its state changed. A trigger whose type has been rewritten since it matched keeps what was
written (log entry 21). -/
def Trigger.fired (t : Trigger) (d : Due) : Trigger :=
  if t.tdata1.typ = d.tdata1.typ then
    { t with tdata1 := { t.tdata1 with view := t.tdata1.view.fired t.impl d.firedAt d.uncertain } }
  else t

/-- `hit` of a type 2 trigger on a match that does not fire, where the implementation sets it (spec/43_mcontrol.md R426). -/
def Trigger.hitOnMatch (t : Trigger) : Trigger :=
  match t.tdata1.view with
  | .mcontrol f => { t with tdata1 := { t.tdata1 with view := .mcontrol (f.fired t.impl) } }
  | _ => t

/-- A match of a type 3 trigger (spec/45_icount.md R474 to R476): `count` goes down by 1, from 1 it sets `pending` as well, at
0 nothing changes; a hard-wired `count` stays 1. -/
def Icount.counted (p : TrigImpl) (f : Icount) : Icount :=
  if 1 < f.count.toNat then { f with count := f.count - 1 }
  else if f.count = 1 then { f with pending := true, count := if p.countHardwired then 1 else 0 }
  else f

/-- A match of a type 3 trigger by the very instruction that wrote it (R477): "count contains the newly written value", and
if it was 1 before, `pending` is the written bit or 1, which is free (U13). -/
def Icount.selfWritten (countWas : BitVec 14) (free : Bool) (f : Icount) : Icount :=
  if countWas = 1 then { f with pending := f.pending || free } else f

end Sys2Proof.Machine
end

