-- ==== Sys2Proof/Machine/Operands.lean ====
section
/-! DEFINITION. The operands of the CSR instructions: general registers and the 5-bit immediate (spec/30_encoding.md R230,
R233), and the host's own register writes. -/

namespace Sys2Proof.Machine

/-- `x[r]` as an XLEN-bit value; `x0` reads 0 (spec/30_encoding.md R239, R242). -/
def State.readReg (s : State) (r : Reg) : Word := if r = 0 then 0 else s.xlen.trunc s.x[r.toNat]

/-- `x[r] <- v`, an XLEN-bit value; a write to `x0` is discarded. -/
def State.writeReg (s : State) (r : Reg) (v : Word) : State :=
  if r = 0 then s else s.setRegs (s.x.set r.toNat (s.xlen.trunc v))

/-- The host's register writes, in order. -/
def State.writeRegs (s : State) (ws : List (Reg × Word)) : State := ws.foldl (fun s w => s.writeReg w.1 w.2) s

/-- `zext_XLEN(uimm)` (R233). -/
def uimmValue (u : BitVec 5) : Word := u.setWidth 64

end Sys2Proof.Machine
end

