-- ==== Sys2Proof/Machine/Match.lean ====
section
/-! DEFINITION. When a trigger matches: the conjunction of spec/41_trigger_common.md R320, clause by clause, with the type
conditions of spec/42_memory_access_triggers.md, spec/46_itrigger_etrigger.md and spec/47_tmexttrigger.md, the context filter
of spec/48_textra.md and the reentrancy protection of spec/60_exceptions.md R566 to R570. Nothing here changes the state. -/

namespace Sys2Proof.Machine

/-! ## Mode, context and reentrancy -/

/-- `enabled(i, e)` for an event of mode `m` (R323). Type 2 has no enable for VS and VU (decision D8), type 7 has none at all,
and no view has one for Debug Mode. -/
def View.enabledIn (v : View) (md : Mode) : Bool :=
  match v, md with
  | .tmext _, .debug => false
  | .tmext _, _ => true
  | .mcontrol f, .m => f.m
  | .mcontrol f, .s => f.s
  | .mcontrol f, .u => f.u
  | .icount f, .m => f.m
  | .icount f, .s => f.s
  | .icount f, .u => f.u
  | .icount f, .vs => f.vs
  | .icount f, .vu => f.vu
  | .itrigger f, .m => f.m
  | .itrigger f, .s => f.s
  | .itrigger f, .u => f.u
  | .itrigger f, .vs => f.vs
  | .itrigger f, .vu => f.vu
  | .etrigger f, .m => f.m
  | .etrigger f, .s => f.s
  | .etrigger f, .u => f.u
  | .etrigger f, .vs => f.vs
  | .etrigger f, .vu => f.vu
  | .mcontrol6 f, .m => f.m
  | .mcontrol6 f, .s => f.s
  | .mcontrol6 f, .u => f.u
  | .mcontrol6 f, .vs => f.vs
  | .mcontrol6 f, .vu => f.vu
  | _, _ => false

/-- `enabled(i, e)` of a `tdata1`. -/
def Tdata1.enabledIn (t : Tdata1) (md : Mode) : Bool := t.view.enabledIn md

/-- Exception code `code` is delegated from M-mode. Under solution 2 "medeleg[3] is hard-wired to 0" (spec/60_exceptions.md
R567, R576); without S-mode there is nothing to delegate to. -/
def State.delegated (s : State) (code : Nat) : Bool :=
  s.host.medeleg.getLsbD code && s.cfg.hasS && !(code == 3 && s.cfg.reentrancy == .tcontrol)

/-- Exception code `code` is delegated on to VS-mode (R575). -/
def State.hdelegated (s : State) (code : Nat) : Bool := s.host.hedeleg.getLsbD code && s.cfg.hasH

/-- `native_inhibited(m)` (R566, R567, R570). -/
def State.nativeInhibited (s : State) (md : Mode) : Bool :=
  match s.cfg.reentrancy with
  | .unprotected => false
  | .ieGating =>
    match md with
    | .m => !s.host.mie
    | .s => s.delegated 3 && !s.host.sie
    | .vs => s.delegated 3 && s.hdelegated 3 && !s.host.vssie
    | .u => false
    | .vu => false
    | .debug => false
  | .tcontrol =>
    match md with
    | .m => !s.mte
    | .s => false
    | .u => false
    | .vs => false
    | .vu => false
    | .debug => false

/-- Clause (g) of R320 holds the trigger back in mode `m`. -/
def State.holdsBack (s : State) (t : Tdata1) (md : Mode) : Bool := t.action == 0 && s.nativeInhibited md

/-- The part of `textra` in view: all of it, or what XLEN = 32 reaches (R535). -/
def State.textraView (s : State) (t : Textra) : Textra :=
  match s.xlen with
  | .x32 => t.low32
  | .x64 => t

/-- The width of `mhvalue` in view (R527). -/
def State.mhWidth (s : State) : Nat :=
  match s.xlen with
  | .x32 => 6
  | .x64 => 13

/-- `{mhvalue, mhselect[2]}` as a number (R527). -/
def Textra.mhCompare (t : Textra) : Nat := 2 * t.mhvalue.toNat + (t.mhselect.getLsbD 2).toNat

/-- The machine-side condition, by `mhselect` (R527, R528). Where the implementation has no `mcontext` but supports a select that
compares with it, the value compared is the 0 that nothing can write (DESIGN CHOICE, log entry 60). Where VMIDMAX is more than the
width of `{mhvalue, mhselect[2]}` in view, that value is zero-extended, so that a greater VMID never matches (DESIGN CHOICE, log
entry 65). -/
def State.mhOk (s : State) (t : Textra) : Bool :=
  match t.mhselect.toNat with
  | 0 => true
  | 4 => s.mcontext.toNat % 2 ^ s.mhWidth == t.mhvalue.toNat
  | 1 => s.mcontext.toNat % 2 ^ (s.mhWidth + 1) == t.mhCompare
  | 5 => s.mcontext.toNat % 2 ^ (s.mhWidth + 1) == t.mhCompare
  | 2 => s.host.vmid == t.mhCompare % 2 ^ s.cfg.vmidMax
  | 6 => s.host.vmid == t.mhCompare % 2 ^ s.cfg.vmidMax
  | _ => false

/-- `bm`: the byte mask expanded to bits (R530, R531). -/
def byteMask (k : BitVec 4) : BitVec 32 :=
  (if k.getLsbD 3 then 0xff#8 else 0#8) ++ (if k.getLsbD 2 then 0xff#8 else 0#8)
    ++ (if k.getLsbD 1 then 0xff#8 else 0#8) ++ (if k.getLsbD 0 then 0xff#8 else 0#8)

/-- The low bits of `scontext` that `svalue` is compared with (R530): 16 of them with XLEN = 32, else 32. -/
def State.scontextLow (s : State) : BitVec 32 :=
  match s.xlen with
  | .x32 => (s.scontext.extractLsb' 0 16).setWidth 32
  | .x64 => s.scontext.extractLsb' 0 32

/-- The ASID in force: that of `vsatp` in VS-mode and VU-mode, else that of `satp` (R530). -/
def State.asidNow (s : State) : Nat :=
  match s.mode with
  | .vs => s.host.vsasid
  | .vu => s.host.vsasid
  | .m => s.host.asid
  | .s => s.host.asid
  | .u => s.host.asid
  | .debug => s.host.asid

/-- The supervisor-side condition, by `sselect` (R530, R531). A byte whose mask bit is not implemented is compared, as R530's formula
has it (DESIGN CHOICE beside R531, log entry 63). Where the implementation has neither `scontext` nor `mscontext` but
supports select 1, the value compared is the 0 that nothing can write (DESIGN CHOICE, log entry 60). Where ASIDMAX is more than the
width of `svalue` in view, that value is zero-extended, so that a greater ASID never matches (DESIGN CHOICE, log entry 65). -/
def State.sOk (s : State) (t : Textra) : Bool :=
  match t.sselect.toNat with
  | 0 => true
  | 1 => s.scontextLow &&& ~~~(byteMask t.sbytemask) == t.svalue &&& ~~~(byteMask t.sbytemask)
  | 2 => s.asidNow == t.svalue.toNat % 2 ^ s.cfg.asidMax
  | _ => false

/-- `textra_ok(i, e)` (R525, R533): types 2 to 6 only, read from the registers as they are now. -/
def State.textraOk (s : State) (t : Trigger) : Bool :=
  match t.tdata1.view with
  | .tmext _ => true
  | .disabled _ => true
  | .mcontrol _ => s.mhOk (s.textraView t.tdata3) && s.sOk (s.textraView t.tdata3)
  | .icount _ => s.mhOk (s.textraView t.tdata3) && s.sOk (s.textraView t.tdata3)
  | .itrigger _ => s.mhOk (s.textraView t.tdata3) && s.sOk (s.textraView t.tdata3)
  | .etrigger _ => s.mhOk (s.textraView t.tdata3) && s.sOk (s.textraView t.tdata3)
  | .mcontrol6 _ => s.mhOk (s.textraView t.tdata3) && s.sOk (s.textraView t.tdata3)

/-! ## Chains -/

/-- `chain_link(j)` (R345). -/
def linkAt (ts : List Trigger) (j : Nat) : Bool :=
  match ts[j]? with
  | some t => t.tdata1.isLink
  | none => false

/-- The members of a chain before trigger `i`, nearest first (R346). -/
def chainBack (ts : List Trigger) : Nat → List Nat
  | 0 => []
  | j + 1 => if linkAt ts j then j :: chainBack ts j else []

/-- Trigger `j`'s own conditions have been met by some event of the instruction in progress (R347). -/
def State.hasMatched (s : State) (j : Nat) : Bool := s.matched.any fun e => e.trig == j

/-- Clause (f) of R320: every earlier member of the trigger's chain has matched the same instruction (R347). -/
def State.unblocked (s : State) (i : Nat) : Bool := (chainBack s.trigs i).all s.hasMatched

/-! ## Address and data triggers -/

/-- The sizes a trigger accepts. -/
inductive SizeSel where
  | any
  | bits (n : Nat)
  | never
  deriving DecidableEq, Repr

/-- The size code of type 2 (spec/11_state_trigger_types.md R86; codes 10 to 15 are unlisted). -/
def mcontrolSize (code : BitVec 4) : SizeSel :=
  match code.toNat with
  | 0 => .any
  | 1 => .bits 8
  | 2 => .bits 16
  | 3 => .bits 32
  | 4 => .bits 48
  | 5 => .bits 64
  | 6 => .bits 80
  | 7 => .bits 96
  | 8 => .bits 112
  | 9 => .bits 128
  | _ => .never

/-- The size code of type 6, another table (R107, 90_conflicts.md C6; code 7 is unlisted). -/
def mcontrol6Size (code : BitVec 3) : SizeSel :=
  match code.toNat with
  | 0 => .any
  | 1 => .bits 8
  | 2 => .bits 16
  | 3 => .bits 32
  | 4 => .bits 48
  | 5 => .bits 64
  | 6 => .bits 128
  | _ => .never

/-- What types 2 and 6 share: the fields that select accesses. -/
structure AccessSel where
  select : Bool
  execute : Bool
  store : Bool
  load : Bool
  size : SizeSel
  matchOp : Nat
  /-- The logarithm of the largest NAPOT range: `maskmax` or `maskmax6`. -/
  napotMax : Nat
  /-- `uncertainen`, of type 6; type 2 has no such field. -/
  uncertainen : Option Bool
  deriving DecidableEq, Repr

/-- The size code of type 2 in view: `sizehi` does not exist with XLEN = 32 (spec/11_state_trigger_types.md R82,
spec/43_mcontrol.md R422). -/
def Mcontrol.sizeIn (x : Xlen) (f : Mcontrol) : BitVec 4 :=
  match x with
  | .x32 => f.size &&& 3
  | .x64 => f.size

/-- The access selection of a trigger in the effective XLEN, if it is of type 2 or 6. -/
def Trigger.accessSel (x : Xlen) (t : Trigger) : Option AccessSel :=
  match t.tdata1.view with
  | .mcontrol f =>
    some ⟨f.select, f.execute, f.store, f.load, mcontrolSize (f.sizeIn x), f.matchOp.toNat, f.maskmax.toNat, none⟩
  | .mcontrol6 f =>
    some ⟨f.select, f.execute, f.store, f.load, mcontrol6Size f.size, f.matchOp.toNat, t.impl.maskmax6,
      some f.uncertainen⟩
  | .icount _ => none
  | .itrigger _ => none
  | .etrigger _ => none
  | .tmext _ => none
  | .disabled _ => none

/-- The address an event reports in `tval` (spec/60_exceptions.md R553). -/
def Event.addr : Event → Word
  | .exec pc .. => pc
  | .load va .. => va
  | .store va .. => va
  | .cacheOp ea .. => ea

/-- `perfect(e)`. -/
def Event.perfect : Event → Bool
  | .exec _ _ _ p _ => p
  | .load _ _ _ _ _ p _ => p
  | .store _ _ _ _ p _ => p
  | .cacheOp _ p _ => p

/-- The event is the load or the store of an AMO (spec/42_memory_access_triggers.md R378, R379). -/
def Event.amo : Event → Bool
  | .exec .. => false
  | .load _ _ _ _ amo .. => amo
  | .store _ _ _ amo .. => amo
  | .cacheOp .. => false

/-- The event is perfectly observed as far as a trigger with this `select` is concerned: of an AMO "The address is always available
to trigger on" (R378, R379). -/
def Event.seenBy (e : Event) (select : Bool) : Bool := e.perfect || (e.amo && !select)

/-- The address of the event is a physical one (spec/20_memory.md R203). -/
def Event.physical : Event → Bool
  | .exec _ _ _ _ p => p
  | .load _ _ _ _ _ _ p => p
  | .store _ _ _ _ _ p => p
  | .cacheOp _ _ p => p

/-- The size of an event in bits; a cache operation has none. -/
def Event.size : Event → Nat
  | .exec _ _ ilen .. => ilen
  | .load _ n .. => n
  | .store _ n .. => n
  | .cacheOp .. => 0

/-- `watches_access(i, e)` (spec/42_memory_access_triggers.md R370, R385). -/
def AccessSel.watches (a : AccessSel) (cfg : Config) : Event → Bool
  | .exec .. => a.execute
  | .load .. => a.load
  | .store .. => a.store
  | .cacheOp .. => cfg.hasCacheops && a.store && !a.select && a.size == .any

/-- `size_ok(i, e)` (R394), but for the case that is not well-defined (`AccessSel.freeResult`). -/
def AccessSel.sizeOk (a : AccessSel) (e : Event) : Bool :=
  match a.size, e with
  | .any, _ => true
  | .never, _ => false
  | .bits n, .exec _ _ ilen .. => n == ilen && n != 8
  | .bits n, .load _ k .. => n == k && [8, 16, 32, 64, 128].contains n
  | .bits n, .store _ k .. => n == k && [8, 16, 32, 64, 128].contains n
  | .bits _, .cacheOp .. => false

/-- `bytes_of(a, n)` (R391, R392): the lowest address, and with `ALL_BYTES_COMPARE` every other, modulo 2^XLEN. -/
def State.bytesOf (s : State) (a : Word) (n : Nat) : List Word :=
  if s.cfg.allBytesCompare then (List.range n).map fun k => s.xlen.trunc (a + BitVec.ofNat 64 k)
  else [s.xlen.trunc a]

/-- `base(ea)`: the effective address rounded down to a cache block boundary (R386). -/
def State.cacheBase (s : State) (ea : Word) : Word :=
  BitVec.ofNat 64 (ea.toNat - ea.toNat % s.cfg.cacheBlockBytes)

/-- The addresses an event is compared at (R386 to R388, R391, R392). -/
def State.addresses (s : State) : Event → List Word
  | .exec pc _ ilen .. => s.bytesOf pc (ilen / 8)
  | .load va n .. => s.bytesOf va (n / 8)
  | .store va n .. => s.bytesOf va (n / 8)
  | .cacheOp ea .. =>
    match s.cfg.cacheopCompare with
    | .range =>
      (List.range s.cfg.cacheBlockBytes).map fun k => s.xlen.trunc (s.cacheBase ea + BitVec.ofNat 64 k)
    | .blockBase => [s.xlen.trunc (s.cacheBase ea)]
    | .ea => [s.xlen.trunc ea]

/-- An XLEN-bit address is valid for the host (spec/20_memory.md R202): to DXLEN bits a physical address is zero-extended, a
virtual one sign-extended (R203). -/
def State.addrValid (s : State) (physical : Bool) (a : Word) : Bool :=
  validAddr s.cfg (if physical then a else widen s.cfg.dxlen s.xlen a)

/-- The trigger's `tdata2` can represent the XLEN-bit address, sign-extended or zero-extended, under some configuration (log entry
43). -/
def State.represents (s : State) (t : Trigger) (r : Word) : Bool :=
  [widen s.cfg.dxlen s.xlen r, r].any (tdata2LegalForSome s.cfg t.impl)

/-- An invalid address that `tdata2` can represent (R205). -/
def State.remapOk (s : State) (t : Trigger) (physical : Bool) (r : Word) : Bool :=
  !s.addrValid physical r && s.represents t r

/-- An invalid address as a compare value under `remap`: any invalid address that `tdata2` can represent (R205, U17). Where it
can represent none, the address itself (DESIGN CHOICE, log entry 43). -/
def State.remapped (s : State) (t : Trigger) (physical : Bool) (a free : Word) : Word :=
  (someWord (s.remapOk t physical) (free :: (likelyInvalid s.cfg t.impl s.xlen).map s.xlen.trunc) s.xlen.bits).getD a

/-- The index of the free word for byte `k` of an access as trigger `i` compares it: no two pairs of a trigger and a byte share one. -/
def State.remapIndex (s : State) (i k : Nat) : Nat := s.trigs.length * k + i

/-- The compare value of an address as trigger `i` sees it (R205). Each byte address is judged on its own (DESIGN CHOICE, log entry
42). Each trigger draws its own substitute, so that two triggers that look at one access may compare the same or different ones, which
R205 leaves open (DESIGN CHOICE, log entry 67). -/
def State.addressValue (s : State) (i : Nat) (t : Trigger) (physical : Bool) (a : Word) (k : Nat) : Word :=
  if s.cfg.invalidAddrPolicy = .remap ∧ s.addrValid physical a = false then
    s.remapped t physical a (s.xlen.trunc (Config.freeWord .remap s.draws (s.remapIndex i k)))
  else a

/-- The compare values with `select` = 1: the data value loaded or stored or the instruction executed, if it is at most
XLEN bits wide (R393). "Any bits beyond the size of the data access will contain 0." -/
def State.dataValues (s : State) (n : Nat) (v : BitVec 128) : List Word :=
  if n ≤ s.xlen.bits then [(v.extractLsb' 0 64) &&& lowOnes n] else []

/-- `compare_values(i, e)` (R391 to R393). -/
def State.compareValues (s : State) (i : Nat) (t : Trigger) (select : Bool) (e : Event) : List Word :=
  if select then
    match e with
    | .exec _ insn ilen .. => s.dataValues ilen insn
    | .load _ n data .. => s.dataValues n data
    | .store _ n data .. => s.dataValues n data
    | .cacheOp .. => []
  else (s.addresses e).mapIdx fun k a => s.addressValue i t e.physical a k

/-- One compare value passes a positive operation (R396, R398 to R401), `t2` an XLEN-bit value. -/
def comparesOk (x : Xlen) (op : Nat) (t2 c : Word) : Bool :=
  let half := x.bits / 2
  let lo (v : Word) : Word := v &&& lowOnes half
  let hi (v : Word) : Word := v >>> half
  match op with
  | 0 => c == t2
  | 2 => decide (t2.toNat ≤ c.toNat)
  | 3 => decide (c.toNat < t2.toNat)
  | 4 => lo c &&& hi t2 == lo t2
  | 5 => hi c &&& hi t2 == lo t2
  | _ => false

/-- `match_op(op, C, t2)` (R395 to R403); none where a NAPOT range does not exist or is not supported (R397, U15). -/
def matchOp (x : Xlen) (napotMax op : Nat) (cs : List Word) (t2 : Word) : Option Bool :=
  if cs.isEmpty then some false
  else if op = 1 ∨ op = 9 then
    match lowestZero x.bits t2 with
    | some z =>
      if z + 1 ≤ napotMax ∧ z + 1 < x.bits then
        some (xor (op == 9) (cs.any fun c => c >>> (z + 1) == t2 >>> (z + 1)))
      else none
    | none => none
  else if op < 8 then some (cs.any (comparesOk x op t2))
  else if op = 8 ∨ op = 12 ∨ op = 13 then some (!cs.any (comparesOk x (op - 8) t2))
  else some false

/-- The source leaves the result of the match open: a data trigger of any size on an access that is not XLEN bits wide (U8),
a data load with destination `zero` (U5), a data store on an AMO (U4), or a type 2 data load on an AMO (R378). -/
def State.freeResult (s : State) (a : AccessSel) (e : Event) : Bool :=
  a.select &&
    ((a.size == .any && e.size != s.xlen.bits)
      || match e with
         | .load _ _ _ rd amo .. => s.cfg.hasA && (rd == 0 || (amo && a.uncertainen.isNone))
         | .store _ _ _ amo .. => s.cfg.hasA && amo
         | .exec .. => false
         | .cacheOp .. => false)

/-- The answer of a trigger to an event. -/
inductive Verdict where
  | no
  | yes
  /-- The trigger's NAPOT range has no meaning (U15). -/
  | undefined
  deriving DecidableEq, Repr

/-- A truth value as a verdict. -/
def Verdict.ofBool (b : Bool) : Verdict := if b then .yes else .no

/-- The event is at an invalid address and the implementation inhibits matching there (spec/20_memory.md R206). The event's own
address decides, whatever other bytes are compared (DESIGN CHOICE, log entry 42). -/
def State.inhibitedAddr (s : State) (a : AccessSel) (e : Event) : Bool :=
  s.cfg.invalidAddrPolicy == .inhibit && !a.select && !s.addrValid e.physical (s.xlen.trunc e.addr)

/-- `size_ok` and `match_op` of R371 for a perfectly observed event of a watched kind. Where the result is open (U8), it is free even
if the NAPOT range of `tdata2` has no meaning (U15): the step goes on (DESIGN CHOICE, log entry 53). -/
def State.definite (s : State) (i : Nat) (t : Trigger) (a : AccessSel) (e : Event) : Verdict :=
  let cs := s.compareValues i t a.select e
  if !a.sizeOk e || cs.isEmpty then .no
  else if s.freeResult a e then .ofBool (Config.freeBit .matchResult s.draws i)
  else match matchOp s.xlen a.napotMax a.matchOp cs (s.xlen.trunc t.tdata2) with
    | some b => .ofBool b
    | none => .undefined

/-- `type_condition(i, e)` and `type_condition6(i, e)` (R371, spec/44_mcontrol6.md R446): an imperfectly observed event
matches a type 6 trigger only with `uncertainen`, and then if it could match, which it surely could if it does. None matches
an event at an inhibited address (spec/20_memory.md R206). -/
def State.typeCondition (s : State) (i : Nat) (t : Trigger) (a : AccessSel) (e : Event) : Verdict :=
  if s.inhibitedAddr a e then .no
  else match a.uncertainen with
  | none => s.definite i t a e
  | some uncertainen =>
    if e.seenBy a.select then s.definite i t a e
    else if uncertainen then
      match s.definite i t a e with
      | .no => .ofBool (Config.freeBit .possible s.draws i)
      | .yes => .yes
      | .undefined => .undefined
    else .no

/-- The rank at which a trigger is evaluated for an event (R555, R561). -/
def rankOf (select : Bool) : Event → Rank
  | .exec .. => if select then .executeData else .executeAddress
  | .load .. => if select then .loadData else .accessBefore
  | .store .. => .accessBefore
  | .cacheOp .. => .accessBefore

/-- Clauses (a) to (e) and (g) of R320 for an address or data trigger, at one rank. So an execute-data trigger is not evaluated, and has
not matched, where a trigger of rank 2 stops the instruction at the same event (DESIGN CHOICE, log entry 59). -/
def State.ownVerdict (s : State) (i : Nat) (t : Trigger) (e : Event) (r : Rank) : Verdict :=
  match t.accessSel s.xlen with
  | none => .no
  | some a =>
    if rankOf a.select e = r && t.tdata1.enabledIn s.mode && a.watches s.cfg e && s.textraOk t
        && !s.holdsBack t.tdata1 s.mode then
      s.typeCondition i t a e
    else .no

/-! ## Trap triggers, instruction counts and external triggers -/

/-- `code < XLEN and tdata2[code] == 1` (spec/46_itrigger_etrigger.md R491, R497). A `Trap` event is presented in the handler's
mode, so XLEN is that of the handler's mode (DEDUCED, log entry 41). -/
def State.causeBit (s : State) (t : Trigger) (code : Nat) : Bool :=
  decide (code < s.xlen.bits) && t.tdata2.getLsbD code

/-- `type_condition(i, Trap(..))` of types 4 and 5 (R491, R492, R497). A non-maskable interrupt goes by `nmi` alone, also on a
hart that has none and whose host presents one (log entry 24). -/
def State.trapCondition (s : State) (t : Trigger) (interrupt nmi : Bool) (code : Nat) : Bool :=
  match t.tdata1.view with
  | .itrigger f => interrupt && if nmi then f.nmi else s.causeBit t code
  | .etrigger _ => !interrupt && s.causeBit t code
  | .mcontrol _ => false
  | .icount _ => false
  | .mcontrol6 _ => false
  | .tmext _ => false
  | .disabled _ => false

/-- A type 4 or 5 trigger matches a trap that has just been taken from `mFrom`; the protection is evaluated in the handler's
mode and state (R494, R499, R504, decision D24). -/
def State.trapMatches (s : State) (mFrom : Mode) (interrupt nmi : Bool) (code i : Nat) (t : Trigger) : Bool :=
  s.trapCondition t interrupt nmi code && t.tdata1.enabledIn mFrom && s.textraOk t && s.unblocked i
    && !s.holdsBack t.tdata1 s.mode

/-- A type 3 trigger matches an instruction retired after being fetched in `m`, or a trap taken from `m` (spec/45_icount.md
R471). The filter and chains are read from `s`, the protection from `was`. -/
def State.countMatches (was s : State) (md : Mode) (i : Nat) (t : Trigger) : Bool :=
  t.tdata1.typ == 3 && t.tdata1.enabledIn md && s.textraOk t && s.unblocked i && !was.holdsBack t.tdata1 md

/-- A type 7 trigger selects the signal (spec/47_tmexttrigger.md R511 to R513): inputs from `EXT_INPUTS` up are inactive. -/
def Tmext.selects (cfg : Config) (f : Tmext) : HostItem → Bool
  | .extIn k => decide (k < cfg.extInputs) && f.select.getLsbD k
  | .intCtl => f.intctl
  | .insn _ => false
  | .interrupt .. => false
  | .resume .. => false
  | .host _ => false

end Sys2Proof.Machine
end

