-- ==== Sys2Proof/Machine/Ops.lean ====
section
/-! DEFINITION. The shared operations: the end of an instruction, taking a trap, returning from one, and entering Debug Mode.

TAKING A TRAP is one operation, `State.takeTrap`, for every exception and interrupt: the breakpoint of action 0
(spec/60_exceptions.md R552), the illegal instruction exception of a refused CSR access (R551), and the host hart's own
exceptions and interrupts. The spec leaves the mechanism to the hart (R578, decision D1) but says what the Trigger Module
does with it: `epc` is the address of the next instruction to execute (R554), `tval` goes to the registers of the mode the trap
is taken to (R553), `tcontrol` is stacked (R571), the trap clears the interrupt enable of the mode it is taken to
(spec/46_itrigger_etrigger.md R504), and icount, itrigger and etrigger see the `Trap` event (R471, R501). -/

namespace Sys2Proof.Machine

/-! ## The end of an instruction -/

/-- The action hands out a signal and "does not affect the execution of the hart" (spec/41_trigger_common.md R335). -/
def isSignalAction (action : Nat) : Bool := action != 0 && action != 1

/-- A fire whose instruction has not retired and never will. An imprecise one is what it was, and reports the time it takes place at
(R560, spec/44_mcontrol6.md R443); any other reports a time before its instruction has retired (spec/11_state_trigger_types.md R105;
DEDUCED, log entry 14). -/
def Due.unretired (d : Due) : Due := if d.delayed then d else { d with time := .before }

/-- The fires due after an instruction that did not retire and that still take place: signals, because they "fire
independently" (R335, R559), and those of R560, which take place at any later boundary: all fires of an imprecise implementation, and
those for which an mcontrol6 trigger takes the time `after` (spec/44_mcontrol6.md R443). -/
def State.survivors (s : State) : List Due :=
  (s.dueAfter.filter fun d => isSignalAction d.tdata1.action || d.delayed).map Due.unretired

/-- The instruction in progress traps or is stopped: its match sets are emptied (R347). -/
def State.abandon (s : State) : State :=
  ((s.setWaiting (s.waiting ++ s.survivors)).setInProgress [] []).setDeferred []

/-- The host's item in progress is done with. -/
def State.endItem (s : State) : State := s.setFeed s.feed.tail

/-- An instruction has retired since the trigger matched (R444). -/
def Due.age (d : Due) : Due := { d with aged := true }

/-- The waiting fires after an instruction of the mode has retired; Debug Mode's own instructions do not count. -/
def agedIn (md : Mode) (w : List Due) : List Due := if md = .debug then w else w.map Due.age

/-! ## Instruction counts -/

/-- `count` of a trigger, if it is of type 3. -/
def Trigger.count (t : Trigger) : BitVec 14 :=
  match t.tdata1.view with
  | .icount f => f.count
  | .mcontrol _ => 0
  | .itrigger _ => 0
  | .etrigger _ => 0
  | .mcontrol6 _ => 0
  | .tmext _ => 0
  | .disabled _ => 0

/-- A type 3 trigger after an instruction or a trap it has matched (spec/45_icount.md R474 to R477): `was` is the trigger
before the instruction, `wrote` says that the instruction wrote its `tdata1`. -/
def Trigger.countedFrom (was t : Trigger) (wrote free : Bool) : Trigger :=
  match t.tdata1.view with
  | .icount f =>
    let n : Icount := if wrote then Icount.selfWritten was.count free f else Icount.counted t.impl f
    { t with tdata1 := { t.tdata1 with view := .icount n } }
  | .mcontrol _ => t
  | .itrigger _ => t
  | .etrigger _ => t
  | .mcontrol6 _ => t
  | .tmext _ => t
  | .disabled _ => t

/-- Trigger `i`, which is now `t`, after a `Retire` or `Trap` event of mode `md` (R471). The trigger that matches is the one before
the instruction (decision D21), read from `was`; `at_` is the state in which the filter is read. -/
def State.countedAt (was at_ : State) (md : Mode) (wrote : Option Nat) (i : Nat) (t : Trigger) : Trigger :=
  match was.trigs[i]? with
  | some old =>
    if State.countMatches was at_ md i old then
      old.countedFrom t (wrote == some i) (Config.freeBit .pendingSelfWrite was.draws i)
    else t
  | none => t

/-- The triggers `now` after such an event. -/
def State.countedTrigs (was at_ : State) (now : List Trigger) (md : Mode) (wrote : Option Nat) : List Trigger :=
  now.mapIdx (State.countedAt was at_ md wrote)

/-- The instruction retires (spec/45_icount.md R471, spec/42_memory_access_triggers.md R408). `was` is the state in which the
instruction was evaluated, `s` the state with its effects, and `wrote` the trigger whose `tdata1` it wrote. -/
def State.retire (was s : State) (wrote : Option Nat) : State :=
  ((((s.setTrigs (State.countedTrigs was was s.trigs was.mode wrote)).setWaiting
    (agedIn was.mode s.waiting ++ s.dueAfter)).setInProgress [] []).setDeferred []).tick

/-! ## Taking a trap -/

/-- The mode of a handler. -/
def Handler.mode : Handler → Mode
  | .m => .m
  | .s => .s
  | .vs => .vs

/-- The mode an exception is taken to (spec/60_exceptions.md R575): M-mode unless it is delegated; a delegated exception of
VS-mode or VU-mode goes on to VS-mode if `hedeleg` says so, any other to S-mode. M-mode's own are never delegated. R575 does not
list an exception of VS-mode or VU-mode that `medeleg` delegates and `hedeleg` does not: that it goes to S-mode is the model's
(PRESUMED, log entry 25). -/
def State.trapTarget (s : State) (code : Nat) : Handler :=
  match s.mode with
  | .m => .m
  | .debug => .m
  | .s => if s.delegated code then .s else .m
  | .u => if s.delegated code then .s else .m
  | .vs => if s.delegated code then (if s.hdelegated code then .vs else .s) else .m
  | .vu => if s.delegated code then (if s.hdelegated code then .vs else .s) else .m

/-- The interrupt enable of the handler's mode is cleared (spec/46_itrigger_etrigger.md R504). -/
def HostCsrs.masked (h : HostCsrs) : Handler → HostCsrs
  | .m => { h with mie := false }
  | .s => { h with sie := false }
  | .vs => { h with vssie := false }

/-- What `tval` gets for an exception or interrupt that is not a trigger's: a free value of the handler's XLEN
(spec/60_exceptions.md R551). -/
def State.freeTval (s : State) (target : Handler) : Word :=
  (s.xlenIn target.mode).trunc (Config.freeWord .hostTval s.draws 0)

/-- The hart's part of a trap (R578): what it records, its mode, and where control goes, which is free
(91_not_in_source.md N35), an address of the handler's XLEN (spec/10_state.md R24). -/
def State.hostTrap (s : State) (target : Handler) (interrupt : Bool) (code : Nat) (tval : Word) : State :=
  (((s.setTrapRegs target ⟨s.pc, interrupt, code, tval⟩).setHost (s.host.masked target)).setMode target.mode).setPc
    ((s.xlenIn target.mode).trunc (Config.freeWord .handler s.draws 0))

/-- `tcontrol` on a trap into M-mode: `mpte <- mte`, `mte <- 0` (R571). -/
def State.stackTcontrol (s : State) (target : Handler) : State :=
  if target = .m ∧ s.cfg.hasTcontrol = true then s.setTcontrol false s.mte else s

/-- A trigger that matches a trap: `hit` is set (spec/46_itrigger_etrigger.md R505). -/
def Trigger.hitByTrap (t : Trigger) : Trigger :=
  { t with tdata1 := { t.tdata1 with view := t.tdata1.view.fired t.impl .immediatelyAfter false } }

/-- The fire of a type 4 or 5 trigger, due before the handler's first instruction (R501), with `tval` 0 (R502). -/
def trapDue (precise : Bool) (i : Nat) (t : Trigger) : Due :=
  { trig := i, tdata1 := t.tdata1, tvals := [0], time := .immediatelyAfter, delayed := !precise }

/-- Types 4 and 5 answer the trap just taken from `mFrom` (R501). -/
def State.trapTriggers (s : State) (mFrom : Mode) (interrupt nmi : Bool) (code : Nat) : State :=
  (s.setTrigs (s.trigs.mapIdx fun i t =>
      if s.trapMatches mFrom interrupt nmi code i t then t.hitByTrap else t)).setWaiting
    (s.waiting ++ (s.trigs.mapIdx fun i t =>
      if s.trapMatches mFrom interrupt nmi code i t then [trapDue s.cfg.precise i t] else []).flatten)

/-- The hart's part of a trap is done and `tcontrol` is stacked: the state in which the `Trap` event is presented (decision
D24). -/
def State.afterHostTrap (s : State) (target : Handler) (interrupt : Bool) (code : Nat) (tval : Word) : State :=
  (s.hostTrap target interrupt code tval).stackTcontrol target

/-- Type 3 triggers count the trap just taken (spec/45_icount.md R471); `s` is the state before it. -/
def State.countTrap (s h : State) : State := h.setTrigs (State.countedTrigs s h h.trigs s.mode none)

/-- Take a trap from the current mode to the mode `target`. -/
def State.takeTrap (s : State) (target : Handler) (interrupt nmi : Bool) (code : Nat) (tval : Word) : State :=
  ((s.countTrap (s.afterHostTrap target interrupt code tval)).trapTriggers s.mode interrupt nmi code).abandon.tick

/-- A synchronous exception. In Debug Mode no trap is taken (PRESUMED, log entry 7): the instruction ends and nothing else
changes here; what it wrote before its exception is `State.perform`'s. -/
def State.raise (s : State) (code : Nat) (tval : Word) : State :=
  if s.mode = .debug then s.abandon.tick else s.takeTrap (s.trapTarget code) false false code tval

/-! ## Returning from a trap, and Debug Mode -/

/-- What `mret` does to the Trigger Module: `mte <- mpte` (R572). The rest of the return is the hart's (decision D1). -/
def State.returnFromTrap (s : State) : State := if s.cfg.hasTcontrol = true then s.setTcontrol s.mpte s.mpte else s

/-- Enter Debug Mode with `dpc` the address of the next instruction to execute (spec/41_trigger_common.md R332). It is not a
trap (R579). -/
def State.enterDebug (s : State) : State :=
  (((s.setDpc s.pc).setMode .debug).emit [.enterDebug s.pc]).abandon.tick

end Sys2Proof.Machine
end

