-- ==== Sys2Proof/Machine/Csr.lean ====
section
/-! DEFINITION. The Trigger Module's CSRs: their addresses (spec/10_state.md R21), who may access them
(spec/40_csr_access.md R271 to R275), what a read returns (R278) and what a write stores (R280 to R300, R308 to R310). -/

namespace Sys2Proof.Machine

/-- The ten CSRs (R21). -/
inductive TmCsr where
  | tselect
  | tdata1
  | tdata2
  | tdata3
  | tinfo
  | tcontrol
  | scontext
  | mscontext
  | mcontext
  | hcontext
  deriving DecidableEq, Repr

/-- The register at a CSR address, if it is the Trigger Module's (R21). -/
def tmCsr (a : CsrAddr) : Option TmCsr :=
  match a.toNat with
  | 0x5a8 => some .scontext
  | 0x6a8 => some .hcontext
  | 0x7a0 => some .tselect
  | 0x7a1 => some .tdata1
  | 0x7a2 => some .tdata2
  | 0x7a3 => some .tdata3
  | 0x7a4 => some .tinfo
  | 0x7a5 => some .tcontrol
  | 0x7a8 => some .mcontext
  | 0x7aa => some .mscontext
  | _ => none

/-- The implementation has the register (R272; `tselect` and `tdata1` always exist, R27). -/
def TmCsr.existsIn (cfg : Config) : TmCsr → Bool
  | .tselect => true
  | .tdata1 => true
  | .tdata2 => cfg.hasTdata2
  | .tdata3 => cfg.hasTdata3
  | .tinfo => cfg.hasTinfo
  | .tcontrol => cfg.hasTcontrol
  | .scontext => cfg.hasScontext
  | .mscontext => cfg.hasMscontext
  | .mcontext => cfg.hasMcontext
  | .hcontext => cfg.hasHcontext

/-! ## Who may access what -/

/-- The answer to an access: allowed, or refused with an exception code. -/
inductive Permission where
  | allowed
  | refused (code : Nat)
  deriving DecidableEq, Repr

/-- The code of the illegal instruction exception (spec/60_exceptions.md R551). -/
def illegalInstruction : Nat := 2

/-- The code of the virtual-instruction exception (spec/60_exceptions.md R555, rank 6). -/
def virtualInstruction : Nat := 22

/-- The code of the breakpoint exception (R552). -/
def breakpoint : Nat := 3

/-- An access from S/HS-mode (R271, R275, decision D29). -/
def State.permissionS (s : State) : TmCsr → Permission
  | .scontext => if s.cfg.hasSmstateen && !s.host.mstateen57 then .refused illegalInstruction else .allowed
  | .mscontext => if s.cfg.hasSmstateen && !s.host.mstateen57 then .refused illegalInstruction else .allowed
  | .hcontext => if s.cfg.hasSmstateen && !s.host.mstateen57 then .refused illegalInstruction else .allowed
  | .tselect => .refused illegalInstruction
  | .tdata1 => .refused illegalInstruction
  | .tdata2 => .refused illegalInstruction
  | .tdata3 => .refused illegalInstruction
  | .tinfo => .refused illegalInstruction
  | .tcontrol => .refused illegalInstruction
  | .mcontext => .refused illegalInstruction

/-- A refused access from VS-mode or VU-mode: the virtual-instruction exception if the implementation raises it and the access
would succeed from HS-mode (R273, decision D6). -/
def State.refusedV (s : State) (c : TmCsr) : Permission :=
  if s.cfg.virtInsnOnVAccess && s.permissionS c == .allowed then .refused virtualInstruction
  else .refused illegalInstruction

/-- An access from VS-mode: only `scontext`, as both state-enable bits allow (R271, R275). -/
def State.permissionVs (s : State) (c : TmCsr) : Permission :=
  match c with
  | .scontext =>
    if s.cfg.hasSmstateen && !s.host.mstateen57 then .refused illegalInstruction
    else if s.cfg.hasSmstateen && !s.host.hstateen57 then .refused virtualInstruction
    else .allowed
  | .mscontext => s.refusedV .mscontext
  | .hcontext => s.refusedV .hcontext
  | .tselect => .refused illegalInstruction
  | .tdata1 => .refused illegalInstruction
  | .tdata2 => .refused illegalInstruction
  | .tdata3 => .refused illegalInstruction
  | .tinfo => .refused illegalInstruction
  | .tcontrol => .refused illegalInstruction
  | .mcontext => .refused illegalInstruction

/-- An access to a register that exists, by mode (R271). -/
def State.permissionByMode (s : State) (c : TmCsr) : Permission :=
  match s.mode with
  | .m => .allowed
  | .debug => .allowed
  | .s => s.permissionS c
  | .vs => s.permissionVs c
  | .u => .refused illegalInstruction
  | .vu => s.refusedV c

/-- The access checks of a CSR instruction that names a Trigger Module register (R271 to R275). -/
def State.permission (s : State) (c : TmCsr) : Permission :=
  if c.existsIn s.cfg then s.permissionByMode c else .refused illegalInstruction

/-! ## Reads -/

/-- The trigger `tselect` selects, if there is one (R278). -/
def State.selected (s : State) : Option Trigger := s.trigs[s.tselect.toNat]?

/-- `tinfo` (spec/10_state.md R35, R36): `info` is 1 where there is no trigger. -/
def State.tinfo (s : State) : Word :=
  let info : BitVec 16 :=
    match s.selected with
    | some t => t.impl.info
    | none => 1
  0#32 ++ s.cfg.version ++ 0#8 ++ info

/-- `tcontrol`: `mpte` is bit 7, `mte` bit 3 (spec/10_state.md R39). -/
def State.tcontrolImage (s : State) : Word :=
  0#56 ++ bit s.mpte ++ 0#3 ++ bit s.mte ++ 0#3

/-- `tdata3` of a trigger as read in the effective XLEN: the fields of `textra`, or under a type without them a value that was
written sign-extended (R284, spec/10_state.md R25; DESIGN CHOICE, log entry 11). -/
def Trigger.tdata3Image (x : Xlen) (t : Trigger) : Word :=
  if t.tdata3Sext && !t.tdata1.view.hasTextra then t.tdata3.imageSext x else t.tdata3.image x

/-- A read (R278, R279): an XLEN-bit value, and no change of state. -/
def State.readCsr (s : State) (c : TmCsr) : Word :=
  match c with
  | .tselect => s.xlen.trunc s.tselect
  | .tdata1 =>
    match s.selected with
    | some t => t.tdata1.image s.xlen
    | none => 0
  | .tdata2 =>
    match s.selected with
    | some t => s.xlen.trunc t.tdata2
    | none => 0
  | .tdata3 =>
    match s.selected with
    | some t => t.tdata3Image s.xlen
    | none => 0
  | .tinfo => s.tinfo
  | .tcontrol => s.tcontrolImage
  | .scontext => s.xlen.trunc s.scontext
  | .mscontext => s.xlen.trunc s.scontext
  | .mcontext => s.xlen.trunc s.mcontext
  | .hcontext => s.xlen.trunc s.mcontext

/-! ## Writes -/

/-- `legalize_tselect` (R280, U14): a value that selects a trigger is stored; what any other becomes is the
implementation's, an XLEN-bit value (R26). -/
def State.legalSelect (s : State) (v : Word) : Word :=
  if v.toNat < s.trigs.length then v
  else match s.cfg.selectPolicy with
    | .keep => v
    | .fixed w => s.xlen.trunc w
    | .free => s.xlen.trunc (Config.legalizeTselect v)

/-- The trigger after index `i` has `dmode` = 1 (R292). -/
def nextIsDebugs (ts : List Trigger) (i : Nat) : Bool :=
  match ts[i + 1]? with
  | some t => t.tdata1.dmode
  | none => false

/-- The trigger before index `i` has `dmode` = 0 and `chain` = 1 (R293). -/
def previousLinks (ts : List Trigger) (i : Nat) : Bool :=
  match i with
  | 0 => false
  | j + 1 =>
    match ts[j]? with
    | some t => t.tdata1.isLink && !t.tdata1.dmode
    | none => false

/-- The image a write to `tdata1` asks for: M-mode asks for `dmode` = 0, which is what the trigger it may write has (R288). -/
def askedImage (x : Xlen) (v : Word) (debug : Bool) : Word := if debug then v else v &&& ~~~(dmodeBit x)

/-- The value a write to `tdata1` asks for, before it meets the neighbours (R285 to R288): a write of 0 disables the trigger. -/
def State.askedTdata1 (s : State) (i : Nat) (t : Trigger) (v : Word) (debug : Bool) : Tdata1 :=
  if askedImage s.xlen v debug = 0 then disabledValue s.cfg t.impl
  else legalizeTdata1 s.cfg t.impl i t.tdata1 t.tdata2 t.tdata3 s.xlen (askedImage s.xlen v debug) debug

/-- The `chain` bit is zeroed in a value with `dmode` = 0 before a trigger with `dmode` = 1 (R292). -/
def interlocked (ts : List Trigger) (i : Nat) (n : Tdata1) : Tdata1 :=
  if !n.dmode && nextIsDebugs ts i then n.withoutChain else n

/-- A write to `tdata1` that sets `dmode` is ignored after a trigger with `dmode` = 0 and `chain` = 1 (R293). -/
def State.ignoresDmodeSet (s : State) (i : Nat) (old n : Tdata1) : Bool :=
  s.cfg.ignoreDmodeSetAfterChain && n.dmode && !old.dmode && previousLinks s.trigs i

/-- What a write to `tdata1` of trigger `i` stores, if it stores anything: `write_tdata1` of R285. -/
def State.newTdata1 (s : State) (i : Nat) (t : Trigger) (v : Word) (debug : Bool) : Option Tdata1 :=
  if !debug && t.tdata1.dmode then none
  else if s.ignoresDmodeSet i t.tdata1 (interlocked s.trigs i (s.askedTdata1 i t v debug)) then none
  else some (interlocked s.trigs i (s.askedTdata1 i t v debug))

/-- The hidden state of trigger `i` ends with a write to its `tdata1`: the held action (spec/47_tmexttrigger.md R516, decision
D22), and the fires that wait. A fire that the writing instruction itself has brought about, by the old values (decision D21), and
that comes after it, is kept (both DESIGN CHOICE, log entry 16). -/
def State.storeTdata1 (s : State) (i : Nat) (n : Tdata1) : State :=
  (s.modifyTrig i fun t => { t with tdata1 := n, extHeld := false }).setWaiting
    (s.waiting.filter fun d => d.trig != i)

/-- A write to `tdata1` (R285), and the trigger it has written. -/
def State.writeTdata1 (s : State) (v : Word) : State × Option Nat :=
  match s.selected with
  | none => (s, none)
  | some t =>
    match s.newTdata1 s.tselect.toNat t v (s.mode == .debug) with
    | some n => (s.storeTdata1 s.tselect.toNat n, some s.tselect.toNat)
    | none => (s, none)

/-- The writer may write the selected trigger's `tdata2` and `tdata3` (R289, R297). -/
def State.mayWrite (s : State) (t : Trigger) : Bool := s.mode == .debug || !t.tdata1.dmode

/-- What a write to `tdata2` of trigger `i` stores (R284, R297). -/
def State.newTdata2 (s : State) (i : Nat) (t : Trigger) (v : Word) : Word :=
  legalizeTdata2 s.cfg t.impl i t.tdata1 s.xlen t.tdata2 (widen s.cfg.dxlen s.xlen v)

/-- A write to `tdata2`. -/
def State.writeTdata2 (s : State) (v : Word) : State :=
  match s.selected with
  | none => s
  | some t =>
    if s.mayWrite t then
      s.modifyTrig s.tselect.toNat fun u => { u with tdata2 := s.newTdata2 s.tselect.toNat t v }
    else s

/-- What a write to `tdata3` of trigger `i` stores (R297, R300): the bits that XLEN = 32 cannot reach are cleared (R284), but
for the sign extension that `writesSext` keeps. -/
def State.newTdata3 (s : State) (i : Nat) (t : Trigger) (v : Word) : Textra :=
  legalizeTdata3 s.cfg t.impl i t.tdata1 s.xlen t.tdata3 (Textra.ofImage s.xlen v)

/-- A write to `tdata3` is sign-extended to DXLEN: XLEN is less, and the register has no fields of `textra`, to which "clears"
would apply (R284, spec/10_state.md R25). -/
def State.writesSext (s : State) (t : Trigger) : Bool :=
  s.xlen == .x32 && s.cfg.dxlen == .x64 && !t.tdata1.view.hasTextra

/-- A write to `tdata3`. -/
def State.writeTdata3 (s : State) (v : Word) : State :=
  match s.selected with
  | none => s
  | some t =>
    if s.mayWrite t then
      s.modifyTrig s.tselect.toNat fun u =>
        { u with tdata3 := s.newTdata3 s.tselect.toNat t v, tdata3Sext := s.writesSext t }
    else s

/-- A write of an XLEN-bit value to a register (R280 to R300, R308 to R310), and the trigger whose `tdata1` it has written. -/
def State.writeCsr (s : State) (c : TmCsr) (v : Word) : State × Option Nat :=
  match c with
  | .tselect => (s.setSelect (s.legalSelect v), none)
  | .tdata1 => s.writeTdata1 v
  | .tdata2 => (s.writeTdata2 v, none)
  | .tdata3 => (s.writeTdata3 v, none)
  | .tinfo => (s, none)
  | .tcontrol => (s.setTcontrol (v.getLsbD 3) (v.getLsbD 7), none)
  | .scontext => (s.setScontext (v &&& lowOnes s.cfg.scontextBits), none)
  | .mscontext => (s.setScontext (v &&& lowOnes s.cfg.scontextBits), none)
  | .mcontext => (s.setMcontext (v &&& lowOnes s.cfg.mcontextBits), none)
  | .hcontext => (s.setMcontext (v &&& lowOnes s.cfg.mcontextBits), none)

end Sys2Proof.Machine
end

