-- ==== Sys2Proof/Machine/CsrInstr.lean ====
section
/-! DEFINITION. The six CSR instructions (spec/40_csr_access.md R301 to R307). A meaning runs the whole instruction: the access
checks, the read, the write, the destination register and the program counter, and then its `Retire` event; or the illegal or
virtual instruction exception of a refused access, which changes neither CSR nor register (R307 (c)). Its `Exec` event comes
before it and is the step's (Machine/HostRun.lean).

A CSR that is not the Trigger Module's is the hart's: its value is free, and what a write does to it is shown by the host
(DESIGN CHOICE, log entry 8). -/

namespace Sys2Proof.Machine

/-- Where a CSR instruction's value comes from and what it asks for. -/
structure CsrOp where
  /-- The destination register takes part in the read: the read has no effect on the CSR (R279), so suppressing it only
  matters for the register, which is x0. -/
  rd : Reg
  csr : CsrAddr
  /-- The instruction writes the CSR. -/
  writes : Bool
  /-- The value written, from the value read. -/
  value : Word → Word

/-- What the instruction reads: the register's value, or a free value for a CSR that is the hart's. -/
def State.csrValue (s : State) (a : CsrAddr) : Word :=
  match tmCsr a with
  | some c => s.readCsr c
  | none => s.xlen.trunc (Config.freeWord .hostCsr s.draws 0)

/-- The access checks by address. The checks of the hart's own CSRs are the hart's: it presents their exceptions itself. -/
def State.csrPermission (s : State) (a : CsrAddr) : Permission :=
  match tmCsr a with
  | some c => s.permission c
  | none => .allowed

/-- The write part, on the XLEN-bit value `v`, and the trigger whose `tdata1` it has written. -/
def State.csrStore (s : State) (a : CsrAddr) (writes : Bool) (v : Word) : State × Option Nat :=
  if writes then
    match tmCsr a with
    | some c => s.writeCsr c v
    | none => (s, none)
  else (s, none)

/-- The program counter after `n` bytes of straight-line code. -/
def State.nextPc (s : State) (n : Nat) : Word := s.xlen.trunc (s.pc + BitVec.ofNat 64 n)

/-- The outcome handed to the hart with a refused access (spec/10_state.md R61). -/
def refusalSignal (code : Nat) : Signal := if code = virtualInstruction then .virtualInstruction else .illegalInstruction

/-- The write part of a CSR instruction. -/
def State.csrWritten (s : State) (op : CsrOp) : State × Option Nat :=
  s.csrStore op.csr op.writes (op.value (s.csrValue op.csr))

/-- A CSR instruction whose access is allowed: the state with its effects, before it retires. -/
def State.csrEffect (s : State) (op : CsrOp) : State × Option Nat :=
  (((s.csrWritten op).1.writeReg op.rd (s.csrValue op.csr)).setPc (s.nextPc 4), (s.csrWritten op).2)

/-- A CSR instruction whose access is refused: the exception, and what `tval` gets is free (spec/60_exceptions.md R551). -/
def State.csrRefused (s : State) (code : Nat) : State :=
  (s.emit [refusalSignal code]).raise code (s.freeTval (s.trapTarget code))

/-- A CSR instruction. The host's presentation of it ends with it. -/
def State.csrInstr (s : State) (op : CsrOp) : State :=
  match s.csrPermission op.csr with
  | .allowed => (State.retire s (s.csrEffect op).1 (s.csrEffect op).2).endItem
  | .refused code => (s.csrRefused code).endItem

/-- `csrrw rd, csr, rs1`: `x[rs1]` is written, the old value goes to `rd` (R301). -/
def execCsrrw (rd : Reg) (csr : CsrAddr) (rs1 : Reg) (s : State) : Host.Outcome State Fault Refusal :=
  .next (s.csrInstr { rd := rd, csr := csr, writes := true, value := fun _ => s.readReg rs1 })

/-- `csrrs rd, csr, rs1`: the bits of `x[rs1]` are set; no write if `rs1` is x0 (R302). -/
def execCsrrs (rd : Reg) (csr : CsrAddr) (rs1 : Reg) (s : State) : Host.Outcome State Fault Refusal :=
  .next (s.csrInstr { rd := rd, csr := csr, writes := rs1 != 0, value := fun old => old ||| s.readReg rs1 })

/-- `csrrc rd, csr, rs1`: the bits of `x[rs1]` are cleared; no write if `rs1` is x0 (R303). -/
def execCsrrc (rd : Reg) (csr : CsrAddr) (rs1 : Reg) (s : State) : Host.Outcome State Fault Refusal :=
  .next (s.csrInstr { rd := rd, csr := csr, writes := rs1 != 0, value := fun old => old &&& ~~~(s.readReg rs1) })

/-- `csrrwi rd, csr, uimm`: the immediate is written (R304). -/
def execCsrrwi (rd : Reg) (csr : CsrAddr) (uimm : BitVec 5) (s : State) : Host.Outcome State Fault Refusal :=
  .next (s.csrInstr { rd := rd, csr := csr, writes := true, value := fun _ => uimmValue uimm })

/-- `csrrsi rd, csr, uimm`: the bits of the immediate are set; no write if it is 0 (R305). -/
def execCsrrsi (rd : Reg) (csr : CsrAddr) (uimm : BitVec 5) (s : State) : Host.Outcome State Fault Refusal :=
  .next (s.csrInstr { rd := rd, csr := csr, writes := uimm != 0, value := fun old => old ||| uimmValue uimm })

/-- `csrrci rd, csr, uimm`: the bits of the immediate are cleared; no write if it is 0 (R306). -/
def execCsrrci (rd : Reg) (csr : CsrAddr) (uimm : BitVec 5) (s : State) : Host.Outcome State Fault Refusal :=
  .next (s.csrInstr { rd := rd, csr := csr, writes := uimm != 0, value := fun old => old &&& ~~~(uimmValue uimm) })

end Sys2Proof.Machine
end

