-- ==== Sys2Proof/Machine/Fire.lean ====
section
/-! DEFINITION. What follows a match: chains (spec/41_trigger_common.md R345 to R349), when a trigger fires
(spec/42_memory_access_triggers.md R405 to R408), the actions (R330 to R336) and simultaneous fires (spec/60_exceptions.md
R557 to R559). -/

namespace Sys2Proof.Machine

/-- How far an evaluation goes. -/
inductive Progress where
  /-- The instruction goes on. -/
  | go (s : State)
  /-- It has trapped or entered Debug Mode: "stop means the instruction goes no further" (R561). -/
  | stop (s : State)
  /-- The spec gives no behaviour. -/
  | refuse (r : Refusal)
  deriving DecidableEq, Repr

/-! ## Firing -/

/-- The signal an action hands out (R333, R334). -/
def actionSignal (action : Nat) : Option Signal :=
  match action with
  | 2 => some .traceOn
  | 3 => some .traceOff
  | 4 => some .traceNotify
  | 8 => some (.extOut 0)
  | 9 => some (.extOut 1)
  | _ => none

/-- The action of a fire. -/
def Due.action (d : Due) : Nat := d.tdata1.action

/-- The state change of each fire on its trigger (R336); `hit` "is set for all of them" (R342, R343). Of several fires of one type 6
trigger the last in the list decides `{hit1, hit0}` and `uncertain` (DESIGN CHOICE, log entry 62). -/
def State.fireAll (s : State) (ds : List Due) : State :=
  ds.foldl (fun s d => s.modifyTrig d.trig fun t => t.fired d) s

/-- The values `tval` may get (spec/60_exceptions.md R553, R557): those of the fires with action 0. -/
def tvalCandidates (ds : List Due) : List Word := (ds.filter fun d => d.action == 0).flatMap Due.tvals

/-- One of the candidates, by a number. -/
def oneOf (c : List Word) (n : Nat) : Word :=
  match c with
  | [] => 0
  | [v] => v
  | v :: _ :: _ => c.getD (n % c.length) v

/-- The `tval` of the breakpoint: one of the candidates, which one is free (R557, U1). -/
def State.chooseTval (s : State) (ds : List Due) : Word :=
  oneOf (tvalCandidates ds) (Config.freeNat .tvalChoice s.draws 0)

/-- The breakpoint exception of action 0 (R331, R552): one trap however many triggers ask for it (R557). The address in `tval` is that
of the event (R553), of the XLEN of the mode it occurred in: a handler of a lesser XLEN gets it uncut, and one of a greater XLEN gets it
zero-extended (DESIGN CHOICE, log entry 66). -/
def State.takeBreakpoint (s : State) (ds : List Due) : State :=
  (s.emit [.breakpoint (s.chooseTval ds)]).takeTrap (s.trapTarget 3) false false 3 (s.chooseTval ds)

/-- Actions 0 and 1 of the triggers that fire together (R558): with both, either the hart enters Debug Mode and ignores the
breakpoint, or both take place in an order that is free; Debug Mode first has no continuation (U2, decision D12). -/
def State.act (s : State) (ds : List Due) : Progress :=
  if ds.any fun d => d.action == 1 then
    if (ds.any fun d => d.action == 0) ∧ s.cfg.bothActions = .both then
      if Config.freeBit .bothOrder s.draws 0 then .stop (s.takeBreakpoint ds).enterDebug
      else .refuse .debugBeforeBreakpoint
    else .stop s.enterDebug
  else if ds.any fun d => d.action == 0 then .stop (s.takeBreakpoint ds)
  else .go s

/-- `serve(S)` of R561: the triggers that fire together (R557 to R559). Their signals are handed out whatever else happens: in the
order of the list, and before the breakpoint or the Debug Mode entry of the same set. The spec gives the set no order (R335, R561);
this one is the model's (DESIGN CHOICE, log entry 56). -/
def State.serve (s : State) (ds : List Due) : Progress :=
  if ds.isEmpty then .go s
  else ((s.fireAll ds).emit (ds.filterMap fun d => actionSignal d.action)).act ds

/-! ## Matching -/

/-- The verdict of trigger `i`. -/
def State.verdictAt (s : State) (e : Event) (r : Rank) (i : Nat) : Verdict :=
  match s.trigs[i]? with
  | some t => s.ownVerdict i t e r
  | none => .no

/-- The triggers whose own conditions the event meets. -/
def State.newMatches (s : State) (e : Event) (r : Rank) : List Nat :=
  (List.range s.trigs.length).filter fun i => s.verdictAt e r i == .yes

/-- The first trigger whose NAPOT range has no meaning (U15). -/
def State.firstUndefined (s : State) (e : Event) (r : Rank) : Option Nat :=
  (List.range s.trigs.length).find? fun i => s.verdictAt e r i == .undefined

/-- Trigger `i` observes the event perfectly (spec/44_mcontrol6.md R446). -/
def State.sees (s : State) (e : Event) (i : Nat) : Bool :=
  e.seenBy (((s.trigs[i]?.bind fun t => t.accessSel s.xlen).map AccessSel.select).getD true)

/-- The matches are added to the instruction's set (R347). -/
def State.noted (s : State) (e : Event) (r : Rank) (new : List Nat) : State :=
  s.setInProgress (s.matched ++ new.map fun i => ⟨i, e.addr, s.sees e i, r⟩) s.dueAfter

/-- The type of trigger `i`, if it exists. -/
def typeAt (ts : List Trigger) (i : Nat) : Option Nat := ts[i]?.map fun t => t.tdata1.typ

/-- Trigger `i` continues a chain, all earlier members of which have matched, and has another type (R349, U7, decision D28).
A disabled trigger is not evaluated (log entry 13). -/
def State.mixedLink (s : State) (i : Nat) : Bool :=
  match i with
  | 0 => false
  | j + 1 =>
    linkAt s.trigs j && s.unblocked (j + 1) && (typeAt s.trigs (j + 1)).isSome
      && typeAt s.trigs (j + 1) != some 15 && typeAt s.trigs (j + 1) != typeAt s.trigs j

/-- The first trigger that continues a chain with another type. -/
def State.firstMixed (s : State) : Option Nat := (List.range s.trigs.length).find? s.mixedLink

/-- `hit` of type 2 on a match that need not fire (spec/43_mcontrol.md R426): every trigger that has matched the instruction
and whose predecessors have. A trigger that is not evaluated because the instruction stopped at an earlier rank of the same event
has not matched (DESIGN CHOICE, log entry 59). -/
def State.markMatches (s : State) : State :=
  if s.cfg.hitOnMatch then
    s.setTrigs (s.trigs.mapIdx fun i t => if s.hasMatched i && s.unblocked i then t.hitOnMatch else t)
  else s

/-! ## Chains that complete -/

/-- The field `timing` of trigger `j`, if it is of type 2. -/
def timingAt (ts : List Trigger) (j : Nat) : Option Bool :=
  match ts[j]? with
  | some t =>
    match t.tdata1.view with
    | .mcontrol f => some f.timing
    | .icount _ => none
    | .itrigger _ => none
    | .etrigger _ => none
    | .mcontrol6 _ => none
    | .tmext _ => none
    | .disabled _ => none
  | none => none

/-- The members of the chain that trigger `i` ends, itself included (R346). -/
def chainMembers (ts : List Trigger) (i : Nat) : List Nat := i :: chainBack ts i

/-- Every member of the chain has the `timing` of its last (R348, spec/43_mcontrol.md R425). -/
def chainTimingOk (ts : List Trigger) (i : Nat) : Bool :=
  (chainBack ts i).all fun j => timingAt ts j == timingAt ts i

/-- Trigger `i` fires for the matches just added: it ends its chain, every member has matched the instruction, and one of them
just now (R346 to R348). So a chain that is complete fires again if any of its members matches a further event of the
instruction (DESIGN CHOICE, log entry 45). -/
def State.completes (s : State) (new : List Nat) (i : Nat) : Bool :=
  !linkAt s.trigs i && s.hasMatched i && s.unblocked i && (chainMembers s.trigs i).any new.contains
    && chainTimingOk s.trigs i

/-- What the priority and the certainty of a fire rest on for member `j`: the event at hand if it just matched that, else the earlier
events of the instruction that it has matched. -/
def State.causes (s : State) (e : Event) (r : Rank) (new : List Nat) (j : Nat) : List Matched :=
  if new.contains j then [⟨j, e.addr, s.sees e j, r⟩] else s.matched.filter fun m => m.trig == j

/-- The values `tval` may take (spec/60_exceptions.md R553): 0, or for a trigger by itself the address of the event at hand, or for a
chain the address of any event of the instruction, that one or an earlier one, that a member has matched. -/
def State.addressTvals (s : State) (e : Event) (i : Nat) : List Word :=
  match s.cfg.tvalPolicy with
  | .zero => [0]
  | .address =>
    if (chainBack s.trigs i).isEmpty then [e.addr]
    else (s.matched.filter fun m => (chainMembers s.trigs i).contains m.trig).map Matched.addr

/-- The fire relies on an imperfectly observed event (spec/44_mcontrol6.md R446). A member that both a perfect and an imperfect
earlier event of the instruction have matched counts as certain (DESIGN CHOICE, log entry 46). -/
def State.uncertainFire (s : State) (e : Event) (r : Rank) (new : List Nat) (i : Nat) : Bool :=
  (chainMembers s.trigs i).any fun j => (s.causes e r new j).all fun m => !m.perfect

/-- The chain has the priority of a load data trigger, because some member has matched at rank 11 of an earlier access and
nowhere else, and now is before that rank: "the priority is the lowest priority of the triggers in the chain" (R556). -/
def State.lateFire (s : State) (e : Event) (r : Rank) (new : List Nat) (i : Nat) : Bool :=
  r != .loadData && (chainMembers s.trigs i).any fun j => (s.causes e r new j).all fun m => m.rank == .loadData

/-- A number as a firing time. -/
def fireTimeOf (n : Nat) : FireTime :=
  match n % 3 with
  | 0 => .before
  | 1 => .after
  | _ => .immediatelyAfter

/-- When an mcontrol6 trigger fires (R443, U27). -/
def State.mc6Time (s : State) (p : TrigImpl) (i : Nat) : FireTime :=
  match p.mc6Timing with
  | .always time => time
  | .drawn => fireTimeOf (Config.freeNat .mc6Time s.draws i)

/-- When a trigger fires, and whether at an indeterminate later boundary (R408, R443, spec/60_exceptions.md R560). -/
def State.timeOf (s : State) (i : Nat) (t : Trigger) : FireTime × Bool :=
  match t.tdata1.view with
  | .mcontrol f =>
    if s.cfg.precise then (if f.timing then .immediatelyAfter else .before, false) else (.immediatelyAfter, true)
  | .mcontrol6 _ =>
    if s.cfg.precise then (s.mc6Time t.impl i, s.mc6Time t.impl i == .after) else (.after, true)
  | .icount _ => (.immediatelyAfter, false)
  | .itrigger _ => (.immediatelyAfter, false)
  | .etrigger _ => (.immediatelyAfter, false)
  | .tmext _ => (.immediatelyAfter, false)
  | .disabled _ => (.immediatelyAfter, false)

/-- The fire of trigger `i`. -/
def State.dueOf (s : State) (e : Event) (r : Rank) (new : List Nat) (i : Nat) (t : Trigger) : Due where
  trig := i
  tdata1 := t.tdata1
  tvals := s.addressTvals e i
  uncertain := s.uncertainFire e r new i
  time := (s.timeOf i t).1
  delayed := (s.timeOf i t).2

/-- The fires that the matches just added bring about. -/
def State.completed (s : State) (e : Event) (r : Rank) (new : List Nat) : List Due :=
  (s.trigs.mapIdx fun i t => if s.completes new i then [s.dueOf e r new i t] else []).flatten

/-- The fire takes place before its instruction (spec/42_memory_access_triggers.md R406). -/
def Due.isBefore (d : Due) : Bool := d.time == .before && !d.delayed

/-- The fire waits for rank 11 of this access: a chain with that priority whose action the priority table concerns (R335,
R556). -/
def State.defers (s : State) (e : Event) (r : Rank) (new : List Nat) (d : Due) : Bool :=
  d.isBefore && !isSignalAction d.action && s.lateFire e r new d.trig

/-- The fires that come after the instruction are kept until it has retired (R408). A trigger that several events of the
instruction match is kept once for each, so that a signalling action hands out its signal as often (DESIGN CHOICE, log entry
47). -/
def State.remember (s : State) (ds : List Due) : State := s.setInProgress s.matched (s.dueAfter ++ ds)

/-- The chains that wait for rank 11 and fire now: all of them at that rank. -/
def State.deferredNow (s : State) (r : Rank) : List Due := if r = .loadData then s.deferred else []

/-- The chains that go on waiting for rank 11, with those just completed. -/
def State.deferMore (s : State) (r : Rank) (ds : List Due) : State :=
  s.setDeferred (if r = .loadData then [] else s.deferred ++ ds)

/-- The fires that the matches just added bring about: those before the instruction take place, with the chains that have waited
for this rank, or wait for it themselves; the others are kept. -/
def State.fireCompleted (s : State) (e : Event) (r : Rank) (new : List Nat) : Progress :=
  (((s.remember ((s.completed e r new).filter fun d => !d.isBefore)).deferMore r
      ((s.completed e r new).filter (s.defers e r new))).markMatches).serve
    (s.deferredNow r ++ (s.completed e r new).filter fun d => d.isBefore && !s.defers e r new d)

/-- The matches just added are followed up, unless they reach a chain of mixed types (U7). -/
def State.followUp (s : State) (e : Event) (r : Rank) (new : List Nat) : Progress :=
  match s.firstMixed with
  | some i => .refuse (.mixedChain i)
  | none => s.fireCompleted e r new

/-- The event is evaluated by every address or data trigger of one rank (spec/60_exceptions.md R561). Nothing matches in Debug
Mode (R321). -/
def State.observe (s : State) (e : Event) (r : Rank) : Progress :=
  if s.mode = .debug then .go s
  else match s.firstUndefined e r with
    | some i => .refuse (.undefinedNapot i)
    | none =>
      if (s.newMatches e r).isEmpty && (s.deferredNow r).isEmpty then .go s
      else (s.noted e r (s.newMatches e r)).followUp e r (s.newMatches e r)

end Sys2Proof.Machine
end

