-- ==== Sys2Proof/Machine/HostRun.lean ====
section
/-! DEFINITION. The order of evaluation (spec/60_exceptions.md R561): the instruction boundary with its external signals and
rank 1 triggers, one instruction with its events in rank order, interrupts, and leaving Debug Mode. -/

namespace Sys2Proof.Machine

/-! ## The instruction boundary -/

/-- The trigger may fire in the current mode: not in Debug Mode (R321), nor inhibited (R566 to R570). -/
def State.mayFire (s : State) (t : Tdata1) : Bool := s.mode != .debug && !s.holdsBack t s.mode

/-- How many of the signals the trigger selects (spec/47_tmexttrigger.md R511 to R513): each is one event (decision D22). -/
def Tmext.selected (cfg : Config) (sigs : List HostItem) (f : Tmext) : Nat := (sigs.filter (f.selects cfg)).length

/-- How many signals of this boundary trigger `i`, of type 7, matches, but for the protection: those it selects, if no chain holds
it back (spec/41_trigger_common.md R320 (f), R345; the pseudocode of R516 leaves the chain out: DEDUCED, log entry 48). -/
def State.extMatches (s : State) (sigs : List HostItem) (i : Nat) (f : Tmext) : Nat :=
  if s.unblocked i then f.selected s.cfg sigs else 0

/-- How often trigger `i`, if of type 7, fires at this boundary: once for each selected signal that arrives, and once for a held
action that is released (R515, R516). -/
def State.extFires (s : State) (sigs : List HostItem) (i : Nat) (t : Trigger) : Nat :=
  match t.tdata1.view with
  | .tmext f => if s.mayFire t.tdata1 then s.extMatches sigs i f + t.extHeld.toNat else 0
  | .mcontrol _ => 0
  | .icount _ => 0
  | .itrigger _ => 0
  | .etrigger _ => 0
  | .mcontrol6 _ => 0
  | .disabled _ => 0

/-- Trigger `i` with its held action after this boundary (R516): a signal that may not fire is held or dropped. -/
def State.afterSignal (s : State) (sigs : List HostItem) (i : Nat) (t : Trigger) : Trigger :=
  match t.tdata1.view with
  | .tmext f =>
    { t with extHeld := !s.mayFire t.tdata1 && (t.extHeld || (s.cfg.extPending == .hold && s.extMatches sigs i f != 0)) }
  | .mcontrol _ => t
  | .icount _ => t
  | .itrigger _ => t
  | .etrigger _ => t
  | .mcontrol6 _ => t
  | .disabled _ => t

/-- A fire that waits takes place at this boundary: it may fire, and if it is imprecise it does so when it likes, but an
mcontrol6 fire of time `after` not before another instruction has retired (R444, R560). In Debug Mode none does (R321), and one that
was due before the hart entered it is due at the boundary after the resume (DESIGN CHOICE, log entry 64). -/
def State.dueReady (s : State) (k : Nat) (d : Due) : Bool :=
  s.mayFire d.tdata1
    && (!d.delayed || ((d.time != .after || d.aged) && Config.freeBit .impreciseNow s.draws k))

/-- The item is an external signal. -/
def HostItem.isSignal : HostItem → Bool
  | .extIn _ => true
  | .intCtl => true
  | .insn _ => false
  | .interrupt .. => false
  | .resume .. => false
  | .host _ => false

/-- The boundary is the one before an instruction: what the host presents next, after its signals, is an `Exec` event. -/
def State.execNext (s : State) : Bool :=
  match s.feed.dropWhile HostItem.isSignal with
  | .insn _ :: _ => true
  | _ => false

/-- A pending icount fires: at an `Exec` event only, not before an interrupt (spec/45_icount.md R478). -/
def State.pendingFires (s : State) (i : Nat) (t : Trigger) : Bool :=
  match t.tdata1.view with
  | .icount f =>
    f.pending && s.execNext && t.tdata1.enabledIn s.mode && s.mayFire t.tdata1
      && (s.cfg.precise || Config.freeBit .impreciseNow s.draws (s.waiting.length + i))
  | .mcontrol _ => false
  | .itrigger _ => false
  | .etrigger _ => false
  | .mcontrol6 _ => false
  | .tmext _ => false
  | .disabled _ => false

/-- The fire of a type 3 or type 7 trigger at a boundary, with `tval` 0 (R480, R515). -/
def boundaryDue (i : Nat) (t : Trigger) : Due := { trig := i, tdata1 := t.tdata1 }

/-- The fires of this boundary: S1 of R561, all of one priority (R517). They are a set; the order of the list, in which their signals
are handed out, is the model's: the fires that have waited first, oldest first, then trigger by trigger, with all the fires of one
trigger side by side, while the loop of R516 goes event by event (DESIGN CHOICE, log entry 56). -/
def State.boundaryDues (s : State) (sigs : List HostItem) : List Due :=
  (s.waiting.mapIdx fun k d => if s.dueReady k d then [d] else []).flatten
    ++ (s.trigs.mapIdx fun i t =>
        List.replicate (s.extFires sigs i t + (s.pendingFires i t).toNat) (boundaryDue i t)).flatten

/-- The fires that go on waiting: those the reentrancy protection holds back (log entry 15), the imprecise ones, and all that are due
when the hart is in Debug Mode, which are kept through it and fire after the resume (DESIGN CHOICE, log entry 64: R321 lets none fire
there, and the spec does not say whether it is forgotten). -/
def State.stillWaiting (s : State) : List Due :=
  (s.waiting.mapIdx fun k d => if s.dueReady k d then [] else [d]).flatten

/-- The instruction boundary, at which the signals `sigs` are delivered, all at once (R561). -/
def State.boundary (s : State) (sigs : List HostItem) : Progress :=
  ((s.setTrigs (s.trigs.mapIdx (s.afterSignal sigs))).setWaiting s.stillWaiting).serve (s.boundaryDues sigs)

/-! ## One instruction -/

/-- An exception of the host hart: what `tval` gets is the hart's (spec/60_exceptions.md R551). -/
def State.hostFault (s : State) (code : Nat) : State :=
  s.raise code (s.freeTval (s.trapTarget code))

/-- A host address of `n` bits as an XLEN-bit one: "If physical addresses are less than XLEN bits wide, they are zero-extended.
If virtual addresses are less than XLEN bits wide, they are sign-extended." (spec/20_memory.md R203) -/
def extendAddr (x : Xlen) (n : Nat) (physical : Bool) (a : Word) : Word :=
  if n < x.bits then
    if a.getLsbD (n - 1) && !physical then x.trunc (a ||| ~~~(lowOnes n)) else a &&& lowOnes n
  else x.trunc a

/-- The event of an access (spec/42_memory_access_triggers.md R375 to R384): `lr` is a load, a successful `sc` a store, a failing
one a store or nothing (U3), an AMO a load and a store; a prefetch is no event (R389, R390). -/
def State.accessEvent (s : State) (k : Nat) (a : Access) : Option Event :=
  let va := extendAddr s.xlen a.addrBits a.physical a.va
  match a.kind with
  | .load => some (.load va a.nbits a.data a.rd false a.perfect a.physical)
  | .store => some (.store va a.nbits a.data false a.perfect a.physical)
  | .lr => some (.load va a.nbits a.data a.rd false a.perfect a.physical)
  | .scSuccess => some (.store va a.nbits a.data false a.perfect a.physical)
  | .scFailure =>
    if Config.freeBit .failingSc s.draws k then some (.store va a.nbits a.data false a.perfect a.physical) else none
  | .amoLoad => some (.load va a.nbits a.data a.rd true a.perfect a.physical)
  | .amoStore => some (.store va a.nbits a.data true a.perfect a.physical)
  | .cacheOp op =>
    match op with
    | .clean => some (.cacheOp va a.perfect a.physical)
    | .flush => some (.cacheOp va a.perfect a.physical)
    | .inval => some (.cacheOp va a.perfect a.physical)
    | .zero => some (.cacheOp va a.perfect a.physical)
    | .prefetch => none

/-- The register writes of an instruction stopped at its access `k`: those of a free number of the accesses before it, or none
if the instruction may not be partially executed (R372, R406, U6). -/
def State.partialRegs (s : State) (h : HostInsn) (k : Nat) : List (Reg × Word) :=
  if h.partialAllowed ∧ k ≠ 0 then
    (h.accesses.take (Config.freeNat .accessesDone s.draws k % (k + 1))).flatMap Access.regs
  else []

/-- The instruction stops at its access `k`. What it has written of the registers was written before, in its own mode (R372). -/
def State.stopAt (s : State) (h : HostInsn) (k : Nat) : Progress → Progress
  | .go t => .go t
  | .stop t => .stop (t.setRegs (s.writeRegs (s.partialRegs h k)).x)
  | .refuse r => .refuse r

/-- The hart performs access `k`, or raises its exception of ranks 7 to 10. With the exception, what the instruction has written of
the registers before (R372, R547) stays written (log entry 27), also in Debug Mode, where no trap follows and the spec is silent
(DESIGN CHOICE, log entry 7). -/
def State.perform (s : State) (h : HostInsn) (k : Nat) (a : Access) (e : Option Event) : Progress :=
  match a.fault with
  | some code => .stop ((s.writeRegs (s.partialRegs h k)).hostFault code)
  | none =>
    match e with
    | some e => s.stopAt h k (s.observe e .loadData)
    | none => .go s

/-- One access in rank order: rank 6 triggers, the hart's own exceptions, the access, rank 11 triggers (R561). -/
def State.runAccess (s : State) (h : HostInsn) (k : Nat) (a : Access) : Progress :=
  match s.accessEvent k a with
  | none => s.perform h k a none
  | some e =>
    match s.observe e .accessBefore with
    | .go t => t.perform h k a (some e)
    | .stop t => s.stopAt h k (.stop t)
    | .refuse r => .refuse r

/-- The accesses from number `k` on, in order. -/
def State.runAccesses (s : State) (h : HostInsn) (k : Nat) : List Access → Progress
  | [] => .go s
  | a :: rest =>
    match s.tick.runAccess h k a with
    | .go t => t.runAccesses h (k + 1) rest
    | .stop t => .stop t
    | .refuse r => .refuse r

/-- Where execution goes on after an instruction, for the mode it leaves the hart in to cut to its XLEN. -/
def State.pcAfter (s : State) (h : HostInsn) : Word := h.jump.getD (s.nextPc (h.ilen / 8))

/-- The hart goes on at an address, cut to the XLEN of its mode (spec/10_state.md R24). -/
def State.continueAt (s : State) (pc : Word) : State := s.setPc (s.xlen.trunc pc)

/-- What a host instruction writes: its registers, the host state and the mode it leaves, and its successor. -/
def State.hostWrites (s : State) (h : HostInsn) : State :=
  (((s.writeRegs (h.accesses.flatMap Access.regs ++ h.regs)).setHost (h.newHost.getD s.host)).setMode
    (h.newMode.getD s.mode)).continueAt (s.pcAfter h)

/-- What a host instruction does to the hart, a return from M-mode's traps included (R572). -/
def State.hostEffect (s : State) (h : HostInsn) : State :=
  if h.isMret then (s.hostWrites h).returnFromTrap else s.hostWrites h

/-- An evaluation that ends the item in progress, or goes on. -/
def Progress.andThen (p : Progress) (f : State → Host.Outcome State Fault Refusal) : Host.Outcome State Fault Refusal :=
  match p with
  | .go t => f t
  | .stop t => .next t.endItem
  | .refuse r => .refused r

/-- An instruction of the host hart, past its fetch. -/
def State.runHostInsn (s : State) (h : HostInsn) : Host.Outcome State Fault Refusal :=
  match h.rank6Fault with
  | some code => .next (s.hostFault code).endItem
  | none =>
    (s.runAccesses h 0 h.accesses).andThen fun t => .next (State.retire t (t.hostEffect h) none).endItem

/-- The host state after an instruction that has changed it. -/
def withHost (n : Option HostCsrs) (o : Host.Outcome State Fault Refusal) : Host.Outcome State Fault Refusal :=
  match n, o with
  | some h, .next t => .next (t.setHost h)
  | _, o => o

/-- A CSR instruction, past its fetch. One that names a register of the hart's may raise the hart's own exceptions and change
the host state (log entry 8). -/
def State.runCsrInsn (s : State) (h : HostInsn) (i : Instr) : Host.Outcome State Fault Refusal :=
  match tmCsr i.csr with
  | some _ => exec i s
  | none =>
    match h.rank6Fault with
    | some code => .next (s.hostFault code).endItem
    | none => withHost h.newHost (exec i s)

/-- An instruction past its fetch: one of the six CSR instructions, or one of the hart's own. -/
def State.runDecoded (s : State) (h : HostInsn) : Host.Outcome State Fault Refusal :=
  match decode h.insn h.ilen with
  | .ok i => s.runCsrInsn h i
  | .error _ => s.runHostInsn h

/-- The `Exec` event of an instruction (R12). -/
def State.execEvent (s : State) (h : HostInsn) : Event :=
  .exec (extendAddr s.xlen h.addrBits h.physical s.pc) h.insn h.ilen h.perfect h.physical

/-- One instruction in rank order: rank 2 triggers, the fetch exceptions, rank 5 triggers, and then the rest (R561). -/
def State.runInsn (s : State) (h : HostInsn) : Host.Outcome State Fault Refusal :=
  (s.observe (s.execEvent h) .executeAddress).andThen fun t =>
    match h.fetchFault with
    | some code => .next (t.hostFault code).endItem
    | none => (t.observe (t.execEvent h) .executeData).andThen fun u => u.runDecoded h

/-! ## The other items -/

/-- An interrupt is taken at the boundary; none is taken in Debug Mode (PRESUMED, log entry 7). -/
def State.interrupted (s : State) (code : Nat) (nmi : Bool) (target : Handler) : State :=
  if s.mode = .debug then s.tick
  else s.takeTrap target true nmi code (s.freeTval target)

/-- The hart leaves Debug Mode (decision D15). -/
def State.resumed (s : State) (md : Mode) (pc : Word) : State :=
  if s.mode = .debug then ((s.setMode md).continueAt pc).tick else s.tick

/-- An item of the host's, after the boundary before it. (A signal has been delivered there: nothing is left of it.) -/
def State.runItem (s : State) (i : HostItem) : Host.Outcome State Fault Refusal :=
  match i with
  | .insn h => s.runInsn h
  | .interrupt code nmi target => .next (s.interrupted code nmi target).endItem
  | .extIn _ => .next s.tick.endItem
  | .intCtl => .next s.tick.endItem
  | .resume md pc => .next (s.resumed md pc).endItem
  | .host h => .next (s.setHost h).tick.endItem

/-- The external signals at the head of what the host presents: those of the boundary at hand (R561). -/
def signalsAt (f : List HostItem) : List HostItem := f.takeWhile HostItem.isSignal

/-- After the boundary: the delivered signals are done with; anything else is presented where the hart now is. -/
def State.delivered (s : State) : State :=
  if (signalsAt s.feed).isEmpty then s else (s.setFeed (s.feed.dropWhile HostItem.isSignal)).tick

/-- What the host presents next, after the boundary. -/
def State.runNext (s : State) : Host.Outcome State Fault Refusal :=
  match s.feed with
  | [] => .next s
  | i :: _ => s.runItem i

end Sys2Proof.Machine
end

