-- ==== Sys2Proof/Machine/Step.lean ====
section
/-! DEFINITION. The step: the instruction boundary, and then the next thing the host presents (spec/60_exceptions.md R561). A
step in which a boundary trigger traps or enters Debug Mode ends there. With nothing presented the boundary is all there is. -/

namespace Sys2Proof.Machine

/-- One step of the machine. -/
def step (s : State) : Host.Outcome State Fault Refusal :=
  match s.boundary (signalsAt s.feed) with
  | .go t => t.delivered.runNext
  | .stop t => .next t.delivered
  | .refuse r => .refused r

/-- The state with an instruction as the next thing the host presents: where a step fetches (log entry 3). -/
def State.withFetchWord (s : State) (nbits w : Nat) : State :=
  s.setFeed (.insn { insn := BitVec.ofNat 128 w, ilen := nbits } :: s.feed)

end Sys2Proof.Machine
end

