-- ==== Sys2Proof/WellFormed.lean ====
section
/-! DEFINITION. Well-formedness. An instruction (Syntax.lean) needs no check: its operands have exactly the widths of their
fields, so every term has an encoding and is well-formed (spec/30_encoding.md R230). What must be checked is the
configuration: spec/00_scope.md R8 gives each parameter a constraint, and decision D27 and U9 to U12 have a model refuse a
configuration with reserved codes. Each check has a name; `wf` is their conjunction. -/

namespace Sys2Proof

open Sys2Proof.Machine

/-- "The Trigger Module must support at least one trigger" (R5). -/
def wfNtrig (impls : List TrigImpl) : Bool := !impls.isEmpty

/-- The trigger supports type `n`. -/
def TrigImpl.has (p : TrigImpl) (n : Nat) : Bool := p.info.getLsbD n

/-! ## The checks of one trigger -/

/-- `INFO[i]` holds only types with a meaning, and at least one (R8, decision D27, U9, U19, U20). -/
def wfInfo (p : TrigImpl) : Bool :=
  p.info != 0 && ([0, 1, 8, 9, 10, 11, 12, 13, 14].all fun n => !p.has n)

/-- `RESET_TYPE[i]` "is a set bit of `INFO[i]`" (R8). -/
def wfResetType (p : TrigImpl) : Bool := p.has p.resetType

/-- Every action the view accepts has a meaning (U10). -/
def wfActions (v : ViewImpl) : Bool := v.actions.all definedActions.contains

/-- The view accepts an action that a trigger with `dmode` = 0 can have (R295), with its output present (R334). -/
def wfUsableAction (cfg : Config) (v : ViewImpl) : Bool :=
  v.actions.any fun a =>
    definedActions.contains a && a != 1 && (a != 8 || cfg.extOut0) && (a != 9 || cfg.extOut1)

/-- Every match operation the view accepts is one of those listed (U11). -/
def wfMatches (v : ViewImpl) : Bool := v.matchOps.all definedMatchOps.contains

/-- The view accepts a match operation; codes 1 and 9 need a NAPOT range (R81, R450). -/
def wfUsableMatch (v : ViewImpl) (napot : Bool) : Bool :=
  v.matchOps.any fun m => definedMatchOps.contains m && (napot || !(m == 1 || m == 9))

/-- Every size code the view accepts is listed (U11). -/
def wfSizes (v : ViewImpl) (top : Nat) : Bool := v.sizes.all fun n => decide (n ≤ top)

/-- The codes of every view have a meaning. -/
def wfCodes (p : TrigImpl) : Bool :=
  [p.mcontrol, p.icount, p.itrigger, p.etrigger, p.mcontrol6, p.tmext].all wfActions
    && wfMatches p.mcontrol && wfMatches p.mcontrol6 && wfSizes p.mcontrol 9 && wfSizes p.mcontrol6 6

/-- The view the trigger resets to can hold some `action` and `match` with `dmode` = 0, because `dmode` resets to 0
(spec/70_reset_and_hazards.md R603; DEDUCED, log entry 44). The codes of the other views are all optional (R8). -/
def wfUsable (cfg : Config) (p : TrigImpl) : Bool :=
  match p.resetType with
  | 2 => wfUsableAction cfg p.mcontrol && wfUsableMatch p.mcontrol (p.maskmax != 0)
  | 3 => wfUsableAction cfg p.icount
  | 4 => wfUsableAction cfg p.itrigger
  | 5 => wfUsableAction cfg p.etrigger
  | 6 => wfUsableAction cfg p.mcontrol6 && wfUsableMatch p.mcontrol6 (p.maskmax6 != 0)
  | 7 => wfUsableAction cfg p.tmext
  | _ => true

/-- For every combination of `select`, `execute`, `load` and `store` some `timing` is supported (R8: "non-empty"). -/
def wfTimings (p : TrigImpl) : Bool := p.timing0 ||| p.timing1 == 0xffff

/-- The largest NAPOT range of type 6 leaves a bit to compare (spec/44_mcontrol6.md R450, R451). -/
def wfNapot6 (cfg : Config) (p : TrigImpl) : Bool := decide (p.maskmax6 < cfg.dxlen.bits)

/-- `count` has at least the bit that its reset value 1 needs, and at most 14 (spec/45_icount.md R483). -/
def wfCount (p : TrigImpl) : Bool := decide (1 ≤ p.countBits) && decide (p.countBits ≤ 14)

/-- The implemented widths of `textra` fit its fields (R8). -/
def wfTextraWidths (p : TrigImpl) : Bool :=
  decide (p.mhvalueBits ≤ 13) && decide (p.svalueBits ≤ 32) && decide (p.sbytemaskBits ≤ 4)

/-- The selects of `textra` are listed (U12, spec/48_textra.md R529, R530). -/
def wfSelects (p : TrigImpl) : Bool := p.mhselects.all [0, 1, 2, 4, 5, 6].contains && p.sselects.all [0, 1, 2].contains

/-- The masks of types 4 and 5 have DXLEN bits. -/
def wfMasks (cfg : Config) (p : TrigImpl) : Bool :=
  cfg.dxlen.trunc p.itriggerMask == p.itriggerMask && cfg.dxlen.trunc p.etriggerMask == p.etriggerMask

/-- The values `tdata2` can hold have DXLEN bits. -/
def wfTdata2Ranges (cfg : Config) (p : TrigImpl) : Bool :=
  p.tdata2Ranges.all fun r => decide (r.2 < 2 ^ cfg.dxlen.bits)

/-- The image is a supported configuration of type `n` and size 0. -/
def isAnySize (cfg : Config) (p : TrigImpl) (n : Nat) (image : Word) : Bool :=
  match Tdata1.ofImage64 image with
  | some t =>
    t.typ == n && t.view.sizeCode == 0 && t.normal cfg p == t && t.fieldsLegal cfg p && !rejected p t
  | none => false

/-- What the implementation rejects or refuses leaves size 0 supported (spec/11_state_trigger_types.md R86, R107). -/
def wfAnySize (cfg : Config) (p : TrigImpl) : Bool :=
  (p.rejects.isEmpty && !p.mayRefuse) || [2, 6].all fun n => !p.has n || p.anySize.any (isAnySize cfg p n)

/-- The types without `textra` are of those that have one (R300). -/
def wfNoTextra (p : TrigImpl) : Bool := p.noTextra.all [2, 3, 4, 5, 6].contains

/-- `tdata2` resets to a DXLEN-bit value that is legal for the reset `tdata1` (spec/70_reset_and_hazards.md R602). -/
def wfResetTdata2 (cfg : Config) (p : TrigImpl) : Bool :=
  cfg.dxlen.trunc p.resetTdata2 == p.resetTdata2 && tdata2Legal cfg p (resetTdata1 cfg p).view p.resetTdata2

/-- `RESET_DATA[i]` has the bits of the field `data` (spec/10_state.md R29). -/
def wfResetData (cfg : Config) (p : TrigImpl) : Bool := cfg.dxlen != .x32 || decide (p.resetData.toNat < 2 ^ 27)

/-- The constraints on one trigger's parameters. -/
def wfTrig (cfg : Config) (p : TrigImpl) : Bool :=
  wfInfo p && wfResetType p && wfCodes p && wfUsable cfg p && wfTimings p && wfNapot6 cfg p && wfCount p
    && wfTextraWidths p && wfSelects p && wfMasks cfg p && wfTdata2Ranges cfg p && wfAnySize cfg p && wfResetData cfg p
    && wfResetTdata2 cfg p && wfNoTextra p

/-! ## The checks of the whole -/

/-- A cache block has at least one byte (R386). -/
def wfCache (cfg : Config) : Bool := decide (0 < cfg.cacheBlockBytes)

/-- `hcontext` needs the H extension and `mcontext` (spec/10_state.md R42). R8 puts no such constraint on `mscontext`: it may
exist where `scontext` does not (DESIGN CHOICE, log entry 40). -/
def wfContexts (cfg : Config) : Bool := !cfg.hasHcontext || (cfg.hasH && cfg.hasMcontext)

/-- The contexts fit their registers (R45, R48). -/
def wfContextBits (cfg : Config) : Bool :=
  decide (cfg.scontextBits ≤ cfg.dxlen.bits) && decide (cfg.mcontextBits ≤ cfg.dxlen.bits)

/-- There are at most 16 external trigger inputs (spec/47_tmexttrigger.md R511). -/
def wfInputs (cfg : Config) : Bool := decide (cfg.extInputs ≤ 16)

/-- Solution 2 needs `tcontrol` (spec/60_exceptions.md R567). -/
def wfReentrancy (cfg : Config) : Bool := cfg.reentrancy != .tcontrol || cfg.hasTcontrol

/-- Valid addresses have DXLEN bits (spec/20_memory.md R202). -/
def wfAddresses (cfg : Config) : Bool := cfg.validRanges.all fun r => decide (r.2 < 2 ^ cfg.dxlen.bits)

/-- The instruction lengths are among those the spec names (R8). -/
def wfIlens (cfg : Config) : Bool := cfg.ilens.all [16, 32, 48, 64, 80, 96, 112, 128].contains

/-- `TSELECT_RESET` is "a legal index" (R8). -/
def wfSelectReset (cfg : Config) (impls : List TrigImpl) : Bool := decide (cfg.tselectReset.toNat < impls.length)

/-- The `type` of the trigger never changes: it supports one type, and no write makes it 15 (spec/10_state.md R38,
spec/40_csr_access.md R285, R287). -/
def TrigImpl.fixedType (p : TrigImpl) : Bool := !multiType p && (!hasDisabled p || p.has 15)

/-- `tinfo` may be absent only if no `type` is writable and the version would be 0 (spec/10_state.md R38); type 6 needs
version 1 (spec/44_mcontrol6.md R441). -/
def wfTinfo (cfg : Config) (impls : List TrigImpl) : Bool :=
  (cfg.hasTinfo || (cfg.version == 0 && impls.all TrigImpl.fixedType))
    && (!(impls.any fun p => p.has 6) || (cfg.hasTinfo && decide (1 ≤ cfg.version.toNat)))

/-- `tdata2` "is optional if no implemented triggers use it" (spec/10_state.md R33). -/
def wfTdata2Exists (cfg : Config) (impls : List TrigImpl) : Bool :=
  cfg.hasTdata2 || impls.all fun p => [2, 4, 5, 6].all fun n => !p.has n

/-- The constraints of R8 on a configuration. -/
def wf (cfg : Config) (impls : List TrigImpl) : Bool :=
  wfNtrig impls && impls.all (wfTrig cfg) && wfCache cfg && wfContexts cfg && wfContextBits cfg && wfInputs cfg
    && wfReentrancy cfg && wfAddresses cfg && wfIlens cfg && wfSelectReset cfg impls && wfTinfo cfg impls
    && wfTdata2Exists cfg impls

end Sys2Proof
end

