-- ==== Sys2Proof/Safety.lean ====
section
/-! DEFINITION. What claims about the machine are stated in: the invariant every step keeps, what a debugger's trigger keeps
from other software, and what a reader can see of a state. -/

namespace Sys2Proof.Machine

/-! ## The invariant -/

/-- The registers of one trigger hold a supported configuration (spec/40_csr_access.md R282, R285, R297): every hard-wired bit
has its value, every field a code the implementation accepts, and `tdata2` and `tdata3` are legal under `tdata1`. -/
def trigLegal (cfg : Config) (t : Trigger) : Bool :=
  t.tdata1.normal cfg t.impl == t.tdata1 && t.tdata1.fieldsLegal cfg t.impl
    && tdata2Legal cfg t.impl t.tdata1.view t.tdata2 && tdata3Legal cfg t.impl t.tdata1.view t.tdata3

/-- The parameters of the machine's triggers. -/
def State.impls (s : State) : List TrigImpl := s.trigs.map Trigger.impl

/-- The implemented bits of the contexts (spec/10_state.md R45, R48) and of `tcontrol` (R39). -/
def State.contextsLegal (s : State) : Bool :=
  s.scontext &&& lowOnes s.cfg.scontextBits == s.scontext && s.mcontext &&& lowOnes s.cfg.mcontextBits == s.mcontext
    && (s.cfg.hasTcontrol || (!s.mte && !s.mpte))

/-- No instruction is in progress (spec/10_state.md R62). -/
def State.atBoundary (s : State) : Bool := s.matched.isEmpty && s.dueAfter.isEmpty && s.deferred.isEmpty

/-- The invariant: a well-formed implementation, every register legal, and no instruction in progress. -/
def State.invariant (s : State) : Bool :=
  wf s.cfg s.impls && s.trigs.all (trigLegal s.cfg) && s.contextsLegal && s.atBoundary

/-- No trigger that M-mode can write gates one that only a debugger can (spec/40_csr_access.md R292, R293). -/
def guarded (ts : List Trigger) : Bool :=
  (List.range ts.length).all fun i => !(previousLinks ts i && (ts[i]?.map fun t => t.tdata1.dmode).getD false)

/-! ## What a trigger keeps where no CSR write reaches it -/

/-- The view with the status bits that hardware sets (spec/10_state.md R65) at 0: `hit`, `hit1`, `hit0`, `uncertain`, `count` and
`pending`. What is left is what software has configured. -/
def View.settings : View → View
  | .mcontrol f => .mcontrol { f with hit := false }
  | .icount f => .icount { f with hit := false, count := 0, pending := false }
  | .itrigger f => .itrigger { f with hit := false }
  | .etrigger f => .etrigger { f with hit := false }
  | .mcontrol6 f => .mcontrol6 { f with hit0 := false, hit1 := false, uncertain := false }
  | .tmext f => .tmext { f with hit := false }
  | .disabled data => .disabled data

/-- The view as the fire of an icount trigger with hard-wired `count` leaves its enables (spec/45_icount.md R479). -/
def View.disarmed : View → View
  | .icount f => .icount { f with m := false, s := false, u := false, vs := false, vu := false }
  | .mcontrol f => .mcontrol f
  | .itrigger f => .itrigger f
  | .etrigger f => .etrigger f
  | .mcontrol6 f => .mcontrol6 f
  | .tmext f => .tmext f
  | .disabled data => .disabled data

/-- The configuration is the same: parameters, `tdata2`, `tdata3`, and all of `tdata1` but the status bits and, where `count` is
hard-wired to 1, the enables that a fire has cleared. -/
def Trigger.sameConfig (t u : Trigger) : Bool :=
  u.impl == t.impl && u.tdata2 == t.tdata2 && u.tdata3 == t.tdata3 && u.tdata3Sext == t.tdata3Sext
    && u.tdata1.dmode == t.tdata1.dmode
    && (u.tdata1.view.settings == t.tdata1.view.settings
      || (t.impl.countHardwired && u.tdata1.view.settings == t.tdata1.view.settings.disarmed))

/-- From one list of triggers to another, `dmode` of every trigger and all of the configuration of those with `dmode` = 1 is
kept. -/
def ownersKept (ts us : List Trigger) : Prop :=
  us.length = ts.length ∧
    ∀ (i : Nat) (t u : Trigger), ts[i]? = some t → us[i]? = some u →
      u.tdata1.dmode = t.tdata1.dmode ∧ (t.tdata1.dmode = true → t.sameConfig u = true)

/-! ## Readable state -/

/-- The mode can reach no Trigger Module register at all (spec/40_csr_access.md R271). -/
def Mode.isUser : Mode → Bool
  | .u => true
  | .vu => true
  | .m => false
  | .s => false
  | .vs => false
  | .debug => false

/-- The mode is M-mode or Debug Mode, which may access every register (R271). -/
def Mode.isMachine : Mode → Bool
  | .m => true
  | .debug => true
  | .s => false
  | .u => false
  | .vs => false
  | .vu => false

/-- The registers by the mode-dependent rows of the table (spec/40_csr_access.md R271): S/HS-mode reaches these three. -/
def TmCsr.isContext : TmCsr → Bool
  | .scontext => true
  | .mscontext => true
  | .hcontext => true
  | .tselect => false
  | .tdata1 => false
  | .tdata2 => false
  | .tdata3 => false
  | .tinfo => false
  | .tcontrol => false
  | .mcontext => false

/-! ## What an instruction leaves -/

/-- From `s` to `t` general register `rd` becomes `v`, and no other register changes, register 0 never. -/
def State.writesOnly (s t : State) (rd : Reg) (v : Word) : Prop :=
  (rd ≠ 0 → t.x[rd.toNat] = v) ∧ ∀ r : Reg, r ≠ rd ∨ r = 0 → t.x[r.toNat] = s.x[r.toNat]

/-- What no CSR instruction writes when its access is allowed: the configuration, the mode and the rest of the host state of
R60, what traps have recorded, `dpc`, and the outcomes handed out. -/
def State.sameHart (s t : State) : Prop :=
  t.cfg = s.cfg ∧ t.mode = s.mode ∧ t.host = s.host ∧ t.trapM = s.trapM ∧ t.trapS = s.trapS ∧ t.trapVS = s.trapVS
    ∧ t.dpc = s.dpc ∧ t.outbox = s.outbox

/-- The Trigger Module's registers that belong to no trigger are the same. -/
def State.sameShared (s t : State) : Prop :=
  t.tselect = s.tselect ∧ t.mte = s.mte ∧ t.mpte = s.mpte ∧ t.scontext = s.scontext ∧ t.mcontext = s.mcontext

/-- A trigger after an instruction that it may have counted: all but `count` and `pending` of a type 3 trigger is the same. -/
def Trigger.sameButCount (t u : Trigger) : Prop :=
  u.impl = t.impl ∧ u.tdata2 = t.tdata2 ∧ u.tdata3 = t.tdata3 ∧ u.tdata3Sext = t.tdata3Sext ∧ u.extHeld = t.extHeld ∧
    u.tdata1.dmode = t.tdata1.dmode ∧ (t.tdata1.typ ≠ 3 → u.tdata1 = t.tdata1) ∧
    ∀ f : Icount, t.tdata1.view = .icount f → ∃ (c : BitVec 14) (b : Bool),
      u.tdata1.view = .icount { f with count := c, pending := b }

/-- A trigger after a trap that it may have counted or matched: of `tdata1` only `count` and `pending` of type 3 and `hit` of types 4
and 5 may differ, and nothing else does. -/
def Trigger.sameButTrapBits (t u : Trigger) : Prop :=
  u.impl = t.impl ∧ u.tdata2 = t.tdata2 ∧ u.tdata3 = t.tdata3 ∧ u.tdata3Sext = t.tdata3Sext ∧ u.extHeld = t.extHeld ∧
    u.tdata1.dmode = t.tdata1.dmode ∧
    match t.tdata1.view with
    | .icount f => ∃ (c : BitVec 14) (b : Bool), u.tdata1.view = .icount { f with count := c, pending := b }
    | .itrigger f => ∃ b : Bool, u.tdata1.view = .itrigger { f with hit := b }
    | .etrigger f => ∃ b : Bool, u.tdata1.view = .etrigger { f with hit := b }
    | .mcontrol f => u.tdata1.view = .mcontrol f
    | .mcontrol6 f => u.tdata1.view = .mcontrol6 f
    | .tmext f => u.tdata1.view = .tmext f
    | .disabled data => u.tdata1.view = .disabled data

/-- The value an instruction writes to its CSR, from the value `old` it reads, if it writes it (spec/40_csr_access.md R301 to
R306). -/
def State.asked (s : State) (i : Instr) (old : Word) : Option Word :=
  match i with
  | .csrrw _ _ rs1 => some (s.readReg rs1)
  | .csrrs _ _ rs1 => if rs1 = 0 then none else some (old ||| s.readReg rs1)
  | .csrrc _ _ rs1 => if rs1 = 0 then none else some (old &&& ~~~(s.readReg rs1))
  | .csrrwi _ _ uimm => some (uimm.setWidth 64)
  | .csrrsi _ _ uimm => if uimm = 0 then none else some (old ||| uimm.setWidth 64)
  | .csrrci _ _ uimm => if uimm = 0 then none else some (old &&& ~~~(uimm.setWidth 64))

/-- `t` is `s` after a CSR instruction whose access is allowed: the program counter is past it, `rd` holds `old`, the Trigger
Module's registers are those of `w`, what the write left, and the triggers of `w` have counted the instruction, which wrote
`tdata1` of the trigger `w` names. The fires that wait are those of `w`, older by this instruction, and those due after it; no
instruction is in progress. -/
def State.csrDone (s t : State) (rd : Reg) (old : Word) (w : State × Option Nat) : Prop :=
  t.pc = s.xlen.trunc (s.pc + 4) ∧ s.writesOnly t rd old ∧ w.1.sameShared t ∧
    t.trigs = State.countedTrigs s s w.1.trigs s.mode w.2 ∧ s.sameHart t ∧ t.feed = s.feed.tail ∧
    t.waiting = agedIn s.mode w.1.waiting ++ s.dueAfter ∧ t.atBoundary = true

/-- No trigger is waiting to fire, none is armed: nothing the triggers do can stop what the host presents. -/
def State.quiet (s : State) : Bool :=
  s.waiting.isEmpty && s.trigs.all fun t => t.tdata1.typ == 15

end Sys2Proof.Machine
end

