-- ==== Sys2Proof/Certificates/Slice0/Obligations.lean ====
section
/-! DEFINITION. The statements for the provers, `def Obligations.<Name> : Prop`, listed in OBLIGATIONS.json. Where a clause
rests on an inference of the spec or on a choice of the model, the docstring says which. The machine has no memory
(spec/20_memory.md R200), so no frame speaks of one. -/

section
open Sys2Proof Sys2Proof.Machine

/-! ## Encoding -/

/-- A word decodes to an instruction exactly if it is that instruction's encoding: every operand at every value, no bit dropped
and no second word (30_encoding.md sections 1 and 2, whose fields are the spec's restoration GK1). -/
def Obligations.DecodeInvertsEncode : Prop :=
  ∀ (w : BitVec 32) (i : Instr), decodeWord w = .ok i ↔ encode i = w

/-- Words of 95_test_vectors.md section 2.1 decode to the instructions printed beside them. -/
def Obligations.DecodeReadsSpecWords : Prop :=
  decodeTableWord 32 0x7a029073 = some (.csrrw 0 0x7a0 5) ∧ decodeTableWord 32 0x7a1322f3 = some (.csrrs 5 0x7a1 6) ∧
  decodeTableWord 32 0x7a1332f3 = some (.csrrc 5 0x7a1 6) ∧ decodeTableWord 32 0x7a0fd2f3 = some (.csrrwi 5 0x7a0 31) ∧
  decodeTableWord 32 0x7a1062f3 = some (.csrrsi 5 0x7a1 0) ∧ decodeTableWord 32 0x7a10f073 = some (.csrrci 0 0x7a1 1)

/-- The image of `tdata1` and of `tdata3` loses no field: reading the image back gives the fields, with XLEN = 64 always, with
XLEN = 32 where the parts that XLEN = 32 does not show are 0 (11_state_trigger_types.md; every layout is GK2). -/
def Obligations.RegisterImagesRoundTrip : Prop :=
  (∀ t : Tdata1, Tdata1.ofImage .x64 (t.image .x64) = some t) ∧
  (∀ t : Tdata1, (∀ f : Mcontrol, t.view = .mcontrol f → f.size.toNat < 4) →
    (∀ d : BitVec 59, t.view = .disabled d → d.toNat < 2 ^ 27) → Tdata1.ofImage .x32 (t.image .x32) = some t) ∧
  (∀ e : Textra, Textra.ofImage .x64 (e.image .x64) = e) ∧
  (∀ e : Textra, e.mhvalue.toNat < 2 ^ 6 → e.sbytemask.toNat < 2 ^ 2 → e.svalue.toNat < 2 ^ 16 →
    Textra.ofImage .x32 (e.image .x32) = e)

/-- `type` is bits XLEN-1 to XLEN-4 of `tdata1`, `dmode` is bit XLEN-5, and the image has XLEN bits. This layout of 10_state.md R29 is
the spec's restoration from general knowledge, not in its source (GK2, log entry 31, PRESUMED). -/
def Obligations.TypeAndDmodeStandAtTheTop : Prop :=
  ∀ (x : Xlen) (t : Tdata1),
    (t.image x).toNat / 2 ^ (x.bits - 4) = t.typ ∧ (t.image x).getLsbD (x.bits - 5) = t.dmode

/-! ## Who may access what -/

/-- The access table (40_csr_access.md section 1, R271): M-mode and Debug Mode reach every register that exists; S/HS-mode reaches
the three context registers and VS-mode `scontext`, where Smstateen is absent; every other access is refused. -/
def Obligations.AccessTable : Prop :=
  ∀ (s : State) (c : TmCsr), c.existsIn s.cfg = true →
    (s.mode.isMachine = true → s.permission c = .allowed) ∧
    (s.mode = .s → (c.isContext = true → s.cfg.hasSmstateen = false → s.permission c = .allowed) ∧
      (c.isContext = false → s.permission c ≠ .allowed)) ∧
    (s.mode = .vs → (c = .scontext → s.cfg.hasSmstateen = false → s.permission c = .allowed) ∧
      (c ≠ .scontext → s.permission c ≠ .allowed)) ∧
    (s.mode.isUser = true → s.permission c ≠ .allowed)

/-- How bit 57 of `mstateen0` and of `hstateen0` gates the contexts (40_csr_access.md section 1: the sense of the bits and the
exceptions are the spec's restoration, and `mscontext` its decision D29). -/
def Obligations.StateEnableGatesContexts : Prop :=
  ∀ (s : State) (c : TmCsr), c.existsIn s.cfg = true → c.isContext = true → s.cfg.hasSmstateen = true →
    (s.mode = .s → s.permission c = if s.host.mstateen57 then .allowed else .refused 2) ∧
    (s.mode = .vs → c = .scontext → s.permission c =
      if !s.host.mstateen57 then .refused 2 else if !s.host.hstateen57 then .refused 22 else .allowed)

/-- An access to a register that the implementation does not have raises the illegal instruction exception, code 2, in every mode, and
no general register is written; `tselect` and `tdata1` always exist (40_csr_access.md section 1, R272, and section 6, R307 (c)). The
exception is handed to the hart. Outside Debug Mode the trap is taken, to the mode that delegation gives (log entry 25), with the
instruction's address recorded (log entry 6); in Debug Mode none is taken (log entry 7), so that the last clause leaves it out. -/
def Obligations.MissingRegisterRaisesIllegalInstruction : Prop :=
  ∀ (i : Instr) (s : State) (c : TmCsr), tmCsr i.csr = some c → c.existsIn s.cfg = false →
    c ≠ .tselect ∧ c ≠ .tdata1 ∧ ∃ t, exec i s = .next t ∧ t.outbox = s.outbox ++ [.illegalInstruction] ∧ t.x = s.x ∧
      (s.mode ≠ .debug → ∃ v, t.trapRegs (s.trapTarget 2) = ⟨s.pc, false, 2, v⟩ ∧ t.mode = (s.trapTarget 2).mode)

/-- A refused access, of any of the six instructions, writes neither the CSR nor `rd`: the exception is taken with the
instruction's own address (40_csr_access.md section 6, R307 (c), GK1; the code of a mode's refusal is decision D6). No trigger is written,
and the icount, interrupt and exception triggers see the trap, which changes only their `count`, `pending` and `hit`, and `tcontrol`
is stacked by it, as by any trap (60_exceptions.md R571; the trap itself is log entry 6, its target log entry 25). In Debug Mode no
trap is taken: the model's choice, log entry 7. -/
def Obligations.RefusedAccessWritesNothing : Prop :=
  ∀ (i : Instr) (s : State) (c : TmCsr) (code : Nat), tmCsr i.csr = some c → s.permission c = .refused code →
    (code = 2 ∨ code = 22) ∧ ∃ t, exec i s = .next t ∧
      t.x = s.x ∧ t.tselect = s.tselect ∧ t.scontext = s.scontext ∧ t.mcontext = s.mcontext ∧ t.dpc = s.dpc ∧
      t.feed = s.feed.tail ∧
      t.outbox = s.outbox ++ [if code = 22 then .virtualInstruction else .illegalInstruction] ∧
      List.Forall₂ Trigger.sameButTrapBits s.trigs t.trigs ∧
      (s.mode ≠ .debug → t.mode = (s.trapTarget code).mode ∧
        (t.mte, t.mpte) = (if s.trapTarget code = .m ∧ s.cfg.hasTcontrol = true then (false, s.mte) else (s.mte, s.mpte)) ∧
        ∃ v, t.trapRegs (s.trapTarget code) = ⟨s.pc, false, code, v⟩) ∧
      (s.mode = .debug → t.mode = .debug ∧ t.pc = s.pc ∧ t.trigs = s.trigs ∧ t.mte = s.mte ∧ t.mpte = s.mpte)

/-- An access from M-mode or Debug Mode to a register that exists succeeds whatever the selected trigger's type, with no exception, and
the mode stays (40_csr_access.md section 1, R274). What succeeding means is section 6, R301 to R307, the spec's restoration GK1 (log
entry 30, PRESUMED): the instruction's `rd` gets what a read returns, the register what a write of the value the instruction asks for
leaves, nothing where it asks for none. -/
def Obligations.MachineAccessSucceeds : Prop :=
  ∀ (i : Instr) (s : State) (c : TmCsr), tmCsr i.csr = some c → c.existsIn s.cfg = true → s.mode.isMachine = true →
    ∃ t, exec i s = .next t ∧ s.csrDone t i.rd (s.readCsr c)
      (match s.asked i (s.readCsr c) with
       | some v => s.writeCsr c v
       | none => (s, none))

/-! ## The six instructions

Each completes on every register of the Trigger Module that its mode may access (40_csr_access.md section 6, whose operands and
effects are the spec's restoration GK1): `rd` gets what a read returned, the register gets what a write leaves, and nothing else
changes but the instruction counts (R307 (b)) and the age of the fires that wait. -/

/-- CSRRW. -/
def Obligations.CsrrwCompletes : Prop :=
  ∀ (rd rs1 : Reg) (a : CsrAddr) (s : State) (c : TmCsr), tmCsr a = some c → s.permission c = .allowed →
    ∃ t, exec (.csrrw rd a rs1) s = .next t ∧ s.csrDone t rd (s.readCsr c) (s.writeCsr c (s.readReg rs1))

/-- CSRRS; no write if `rs1` is x0. -/
def Obligations.CsrrsCompletes : Prop :=
  ∀ (rd rs1 : Reg) (a : CsrAddr) (s : State) (c : TmCsr), tmCsr a = some c → s.permission c = .allowed →
    ∃ t, exec (.csrrs rd a rs1) s = .next t ∧
      s.csrDone t rd (s.readCsr c) (if rs1 = 0 then (s, none) else s.writeCsr c (s.readCsr c ||| s.readReg rs1))

/-- CSRRC; no write if `rs1` is x0. -/
def Obligations.CsrrcCompletes : Prop :=
  ∀ (rd rs1 : Reg) (a : CsrAddr) (s : State) (c : TmCsr), tmCsr a = some c → s.permission c = .allowed →
    ∃ t, exec (.csrrc rd a rs1) s = .next t ∧
      s.csrDone t rd (s.readCsr c) (if rs1 = 0 then (s, none) else s.writeCsr c (s.readCsr c &&& ~~~(s.readReg rs1)))

/-- CSRRWI. -/
def Obligations.CsrrwiCompletes : Prop :=
  ∀ (rd : Reg) (a : CsrAddr) (uimm : BitVec 5) (s : State) (c : TmCsr), tmCsr a = some c → s.permission c = .allowed →
    ∃ t, exec (.csrrwi rd a uimm) s = .next t ∧ s.csrDone t rd (s.readCsr c) (s.writeCsr c (uimm.setWidth 64))

/-- CSRRSI; no write if the immediate is 0. -/
def Obligations.CsrrsiCompletes : Prop :=
  ∀ (rd : Reg) (a : CsrAddr) (uimm : BitVec 5) (s : State) (c : TmCsr), tmCsr a = some c → s.permission c = .allowed →
    ∃ t, exec (.csrrsi rd a uimm) s = .next t ∧
      s.csrDone t rd (s.readCsr c) (if uimm = 0 then (s, none) else s.writeCsr c (s.readCsr c ||| uimm.setWidth 64))

/-- CSRRCI; no write if the immediate is 0. -/
def Obligations.CsrrciCompletes : Prop :=
  ∀ (rd : Reg) (a : CsrAddr) (uimm : BitVec 5) (s : State) (c : TmCsr), tmCsr a = some c → s.permission c = .allowed →
    ∃ t, exec (.csrrci rd a uimm) s = .next t ∧
      s.csrDone t rd (s.readCsr c) (if uimm = 0 then (s, none) else s.writeCsr c (s.readCsr c &&& ~~~(uimm.setWidth 64)))

/-- A CSR instruction that names a register of the hart's own completes too and leaves every register of the Trigger Module but
the instruction counts: what it reads is free, and what it does to that register the host presents (the model's choice, log
entry 8; 00_scope.md section 3 leaves those registers to the hart). -/
def Obligations.HostCsrInstructionCompletes : Prop :=
  ∀ (i : Instr) (s : State), tmCsr i.csr = none →
    ∃ t v, exec i s = .next t ∧ s.xlen.trunc v = v ∧ s.csrDone t i.rd v (s, none)

/-- What counting does to the triggers: the list keeps its length, and every trigger is the same but for `count` and `pending` of
type 3 (10_state.md section 8, R65; 45_icount.md section 2). It says of a completion statement's triggers all but the counts. -/
def Obligations.CountingChangesCountsOnly : Prop :=
  ∀ (s h : State) (now : List Trigger) (md : Mode) (wrote : Option Nat),
    List.Forall₂ Trigger.sameButCount now (State.countedTrigs s h now md wrote)

/-! ## The step -/

/-- A step runs the decoded instruction. If the host presents an instruction that decodes to `i`, which names a register of the
Trigger Module, the fetch raises no exception, and neither the boundary nor the two observations of its `Exec` event stop the hart,
then the step is `exec i` at the state they leave, in which the hart is as before. -/
def Obligations.StepRunsDecodedInstruction : Prop :=
  ∀ (s a b d : State) (h : HostInsn) (rest : List HostItem) (i : Instr) (c : TmCsr),
    s.feed = .insn h :: rest → decode h.insn h.ilen = .ok i → tmCsr i.csr = some c → h.fetchFault = none →
    s.boundary [] = .go a → a.observe (a.execEvent h) .executeAddress = .go b →
    b.observe (b.execEvent h) .executeData = .go d →
    step s = exec i d ∧ d.pc = s.pc ∧ d.x = s.x ∧ d.mode = s.mode ∧ d.host = s.host ∧ d.feed = s.feed ∧
      d.tselect = s.tselect ∧ d.scontext = s.scontext ∧ d.mcontext = s.mcontext ∧ d.mte = s.mte ∧ d.mpte = s.mpte

/-- With no trigger armed and none waiting, the step of a CSR instruction is its meaning at the very state: nothing is added
around it. -/
def Obligations.QuietStepIsExec : Prop :=
  ∀ (s : State) (h : HostInsn) (rest : List HostItem) (i : Instr) (c : TmCsr), s.quiet = true →
    s.feed = .insn h :: rest → decode h.insn h.ilen = .ok i → tmCsr i.csr = some c → h.fetchFault = none →
    step s = exec i s

/-! ## Reads and writes of the registers -/

/-- R23: a write to one `tdata` register modifies no other `tdata` register and no trigger but the selected one. -/
def Obligations.WritesReachOneRegister : Prop :=
  ∀ (s : State) (c : TmCsr) (v : Word) (i : Nat) (t : Trigger), s.trigs[i]? = some t →
    ∃ u : Trigger, (s.writeCsr c v).1.trigs[i]? = some u ∧ u.impl = t.impl ∧ (i ≠ s.tselect.toNat → u = t) ∧
      (c ≠ .tdata1 → u.tdata1 = t.tdata1) ∧ (c ≠ .tdata2 → u.tdata2 = t.tdata2) ∧
      (c ≠ .tdata3 → u.tdata3 = t.tdata3 ∧ u.tdata3Sext = t.tdata3Sext)

/-- `tselect` holds every index below the number of triggers, and the debugger's test of 40_csr_access.md section 3 (R281, which the
spec marks as derived) finds exactly those: after a write of an XLEN-bit value to `tselect`, the value reads back and `tdata1` reads
a non-zero type, exactly if it is below the number of triggers. -/
def Obligations.SelectReadBackFindsTheTriggers : Prop :=
  ∀ (s : State) (v : Word), s.xlen.trunc v = v → (v.toNat < s.trigs.length → (s.writeCsr .tselect v).1.tselect = v) ∧
    ((s.writeCsr .tselect v).1.readCsr .tselect = v ∧
        ((s.writeCsr .tselect v).1.readCsr .tdata1).toNat / 2 ^ (s.xlen.bits - 4) ≠ 0 ↔
      v.toNat < s.trigs.length)

/-- R308: whichever of the six instructions writes `tinfo`, in M-mode or Debug Mode, it changes nothing and raises nothing; the
instruction is counted like any other. -/
def Obligations.WritingInfoHasNoEffect : Prop :=
  ∀ (i : Instr) (s : State), i.csr = 0x7a4 → s.mode.isMachine = true → s.cfg.hasTinfo = true →
    ∃ t, exec i s = .next t ∧ s.sameShared t ∧ s.sameHart t ∧ List.Forall₂ Trigger.sameButCount s.trigs t.trigs

/-- R310: the contexts store the implemented low bits, and a write through an alias is a write to the one underlying value. -/
def Obligations.ContextWritesReachTheOneValue : Prop :=
  ∀ (s : State) (c : TmCsr) (v : Word), s.xlen.trunc v = v →
    (c = .scontext ∨ c = .mscontext → ∀ d : TmCsr, d = .scontext ∨ d = .mscontext →
      ((s.writeCsr c v).1.readCsr d).toNat = v.toNat % 2 ^ min s.cfg.scontextBits 64) ∧
    (c = .mcontext ∨ c = .hcontext → ∀ d : TmCsr, d = .mcontext ∨ d = .hcontext →
      ((s.writeCsr c v).1.readCsr d).toNat = v.toNat % 2 ^ min s.cfg.mcontextBits 64)

/-- A write of 0 to `tdata1` by a writer that may write it is stored, and leaves the trigger disabled: of type 15 if it supports several
types, else of type 15 or of its own with every enabling bit clear; it reads back as a value that is not 0 (40_csr_access.md
section 5, R286 and R287; `dmode` 0 is the pseudocode of R285, log entry 12). It holds no action: the spec's decision D22, log
entry 16. -/
def Obligations.WritingZeroDisables : Prop :=
  ∀ (s : State) (t : Trigger), s.trigs[s.tselect.toNat]? = some t → s.mayWrite t = true →
    ∃ u : Trigger, (s.writeCsr .tdata1 0).1.trigs[s.tselect.toNat]? = some u ∧ u.tdata1.view.enablesClear = true ∧
      u.extHeld = false ∧ u.tdata1.dmode = false ∧ u.tdata1.image s.xlen ≠ 0 ∧ (multiType t.impl = true → u.tdata1.typ = 15) ∧
      (multiType t.impl = false → u.tdata1.typ = 15 ∨ u.tdata1.typ = onlyType t.impl)

/-- A trigger whose enabling bits are clear matches nothing, and fires at no boundary unless a fire of an earlier configuration still
waits, which a write to `tdata1` drops (log entry 16) (41_trigger_common.md section 1; 40_csr_access.md section 5, R286: "A disabled
trigger never matches and never fires"). -/
def Obligations.DisabledTriggerNeverMatches : Prop :=
  ∀ (s h : State) (t : Trigger) (i : Nat), s.trigs[i]? = some t → t.tdata1.view.enablesClear = true → t.extHeld = false →
    (∀ d ∈ s.waiting, d.trig ≠ i) →
    (∀ e r, s.ownVerdict i t e r = .no) ∧ (∀ md a b c, s.trapMatches md a b c i t = false) ∧
    (∀ md, State.countMatches h s md i t = false) ∧
    ∀ sigs, (s.afterSignal sigs i t).extHeld = false ∧ ∀ d ∈ s.boundaryDues sigs, d.trig ≠ i

/-- R288: in a write from M-mode the `dmode` bit of the written value is ignored, and the stored `dmode` keeps its value. -/
def Obligations.MachineWriteKeepsDmode : Prop :=
  ∀ (s : State) (v : Word), s.mode ≠ .debug →
    s.writeCsr .tdata1 v = s.writeCsr .tdata1 (v &&& ~~~(dmodeBit s.xlen)) ∧
    (s.writeCsr .tdata1 v).1.trigs.map (fun t => t.tdata1.dmode) = s.trigs.map (fun t => t.tdata1.dmode)

/-- R291: what a write to `tdata1` stores has the `s` bit 0 without S-mode, the `u` bit 0 without U-mode, and the `vs` and `vu` bits
0 without virtualization. (Type 7 has no such bits.) -/
def Obligations.MissingModesHaveNoEnable : Prop :=
  ∀ (s : State) (i : Nat) (t : Trigger) (v : Word) (debug : Bool) (n : Tdata1), s.newTdata1 i t v debug = some n → n.typ ≠ 7 →
    (s.cfg.hasS = false → n.enabledIn .s = false) ∧ (s.cfg.hasU = false → n.enabledIn .u = false) ∧
    (s.cfg.hasH = false → n.enabledIn .vs = false ∧ n.enabledIn .vu = false)

/-- R292: a write that leaves `dmode` 0 has its `chain` zeroed if the next trigger has `dmode` = 1. -/
def Obligations.ChainIntoDebuggersTriggerZeroed : Prop :=
  ∀ (s : State) (i : Nat) (t u : Trigger) (v : Word) (debug : Bool) (n : Tdata1), s.newTdata1 i t v debug = some n →
    s.trigs[i + 1]? = some u → u.tdata1.dmode = true → n.dmode = false → n.isLink = false

/-- What a write to `tdata1` stores never has `dmode` = 0 with action 1 (40_csr_access.md section 5, R295, GK12). -/
def Obligations.ActionOneNeedsDmode : Prop :=
  ∀ (s : State) (i : Nat) (t : Trigger) (v : Word) (debug : Bool) (n : Tdata1), s.newTdata1 i t v debug = some n →
    n.dmode = false → n.action ≠ 1

/-- R283: what a write to `tdata1` stores is a value under which the trigger's current `tdata2` and `tdata3` are legal; its own fields
are legal too, its type is one the trigger supports or 15, and no hard-wired bit has moved. -/
def Obligations.StoredTdata1IsLegal : Prop :=
  ∀ (s : State) (i : Nat) (t : Trigger) (v : Word) (debug : Bool) (n : Tdata1), wfTrig s.cfg t.impl = true →
    trigLegal s.cfg t = true → s.newTdata1 i t v debug = some n →
    trigLegal s.cfg { t with tdata1 := n } = true ∧ (t.impl.has n.typ = true ∨ n.typ = 15)

/-- R202: for an address match without a mask, `tdata2` holds every valid address, a virtual one or a physical one, also where XLEN is
less than DXLEN: after writing one, the same XLEN-wide value is read back. -/
def Obligations.ValidAddressIsHeldExactly : Prop :=
  ∀ (s : State) (t : Trigger) (v : Word), s.trigs[s.tselect.toNat]? = some t → s.mayWrite t = true →
    trigLegal s.cfg t = true → s.xlen.trunc v = v →
    (∃ a : AccessSel, t.accessSel s.xlen = some a ∧ a.select = false ∧
      (a.matchOp = 0 ∨ a.matchOp = 2 ∨ a.matchOp = 3 ∨ a.matchOp = 8)) →
    validAt s.cfg s.xlen (widen s.cfg.dxlen s.xlen v) = true →
    (s.writeCsr .tdata2 v).1.readCsr .tdata2 = v

/-- Two things about a write to the `tdata2` of a trigger of any type but 4 and 5. What is stored is legal under its `tdata1`: the value
itself where it can be held and the implementation does not refuse it. And for an address trigger, or a disabled one that supports
those: if `tdata2` can hold a DXLEN-bit value `w` that is an invalid address, as it stands and as XLEN shows it, then a written invalid
address never turns into a valid one, neither as XLEN shows it nor, if it is no valid DXLEN-bit address, as the DXLEN-bit value that the
register holds (20_memory.md section 2, R204; 42_memory_access_triggers.md section 8, R411). An address is valid if it is as a virtual or
as a physical one (R203). That a masked match counts as an address match is the model's choice, log entry 54. All ones under the NAPOT
match of type 6 is another matter: it discovers the largest range (44_mcontrol6.md, R451). -/
def Obligations.InvalidAddressStaysInvalid : Prop :=
  ∀ (cfg : Config) (t : Trigger) (i : Nat) (x : Xlen) (old v : Word), t.tdata1.typ ≠ 4 → t.tdata1.typ ≠ 5 →
    asksLargestNapot6 cfg t.tdata1.view v = false →
    (tdata2Legal cfg t.impl t.tdata1.view old = true →
      tdata2Legal cfg t.impl t.tdata1.view (legalizeTdata2 cfg t.impl i t.tdata1 x old v) = true) ∧
    (tdata2Legal cfg t.impl t.tdata1.view v = true → refusedTdata2 cfg t.impl i t.tdata1 old v = false →
      legalizeTdata2 cfg t.impl i t.tdata1 x old v = v) ∧
    (∀ w : Word, t.tdata1.view.asksAddress t.impl = true → cfg.dxlen.trunc w = w →
      tdata2Legal cfg t.impl t.tdata1.view w = true → validAt cfg x w = false → validAddr cfg w = false →
      validAt cfg x v = false →
      validAt cfg x (legalizeTdata2 cfg t.impl i t.tdata1 x old v) = false ∧
        (validAddr cfg v = false → validAddr cfg (legalizeTdata2 cfg t.impl i t.tdata1 x old v) = false) ∧
        tdata2Legal cfg t.impl t.tdata1.view (legalizeTdata2 cfg t.impl i t.tdata1 x old v) = true)

/-- R298: while a trigger is disabled, `tdata2` can be written with any value that some configuration of a type the trigger supports
has legal there, and so can `tdata3`. -/
def Obligations.DisabledTriggerTakesAnySupportedValue : Prop :=
  ∀ (cfg : Config) (p : TrigImpl) (i : Nat) (d : Tdata1) (x : Xlen) (old v : Word) (olde e : Textra) (n : Tdata1), d.typ = 15 →
    n.fieldsLegal cfg p = true →
    (tdata2Legal cfg p n.view v = true → legalizeTdata2 cfg p i d x old v = v) ∧
    (tdata3Legal cfg p n.view e = true → legalizeTdata3 cfg p i d x olde e = e)

/-- R529: `mhselect` never holds 3 or 7, nor 1, 2, 5 or 6 without the H extension. -/
def Obligations.ReservedSelectsNeverStored : Prop :=
  ∀ (s : State) (i : Nat) (t : Trigger) (v : Word),
    (s.newTdata3 i t v).mhselect ≠ 3 ∧ (s.newTdata3 i t v).mhselect ≠ 7 ∧
    (s.cfg.hasH = false → (s.newTdata3 i t v).mhselect = 0 ∨ (s.newTdata3 i t v).mhselect = 4)

/-- With XLEN = 32, a write to `tdata3` under a type with `textra` clears the high bits of the fields of `textra64`; it sets their low bits,
in a trigger whose registers hold a supported configuration (a clause of the invariant), to what the written value asks for, if that is
legal and not refused; and `tdata3` reads the low bits (11_state_trigger_types.md, R186, in the layout of R180: its bit positions are the
spec's restoration GK2, log entry 31 PRESUMED). The clause on the read holds for a selected trigger of every type. R180 and R190 give
types 7 and 15 no layout of `tdata3`: that a read under them shows the fields of `textra` is the model's choice, log entry 11 (DESIGN
CHOICE, unsafe). -/
def Obligations.NarrowTextraWriteClearsHighBits : Prop :=
  ∀ (s : State) (i : Nat) (t : Trigger) (v : Word), s.xlen = .x32 → t.tdata1.view.hasTextra = true →
    (s.newTdata3 i t v).mhvalue.toNat < 2 ^ 6 ∧ (s.newTdata3 i t v).sbytemask.toNat < 2 ^ 2 ∧
    (s.newTdata3 i t v).svalue.toNat < 2 ^ 16 ∧
    (trigLegal s.cfg t = true → tdata3Legal s.cfg t.impl t.tdata1.view (Textra.ofImage .x32 v) = true →
      refusedTdata3 t.impl i t.tdata1 t.tdata3 (Textra.ofImage .x32 v) = false →
      (s.newTdata3 i t v).mhvalue.toNat = v.toNat / 2 ^ 26 % 2 ^ 6 ∧
      (s.newTdata3 i t v).mhselect.toNat = v.toNat / 2 ^ 23 % 2 ^ 3 ∧
      (s.newTdata3 i t v).sbytemask.toNat = v.toNat / 2 ^ 18 % 2 ^ 2 ∧
      (s.newTdata3 i t v).svalue.toNat = v.toNat / 2 ^ 2 % 2 ^ 16 ∧ (s.newTdata3 i t v).sselect.toNat = v.toNat % 2 ^ 2) ∧
    (∀ u : Trigger, s.trigs[s.tselect.toNat]? = some u → (s.readCsr .tdata3).toNat =
      (u.tdata3.mhvalue.toNat % 2 ^ 6) * 2 ^ 26 + u.tdata3.mhselect.toNat * 2 ^ 23 +
        (u.tdata3.sbytemask.toNat % 2 ^ 2) * 2 ^ 18 + (u.tdata3.svalue.toNat % 2 ^ 16) * 2 ^ 2 + u.tdata3.sselect.toNat)

/-! ## Matching -/

/-- R396, R398, R399: equal, greater or equal, and less than, unsigned, hold when any compare value passes. -/
def Obligations.OrderedMatches : Prop :=
  ∀ (x : Xlen) (k : Nat) (cs : List Word) (t2 : Word),
    matchOp x k 0 cs t2 = some (decide (∃ c ∈ cs, c = t2)) ∧
    matchOp x k 2 cs t2 = some (decide (∃ c ∈ cs, c.toNat ≥ t2.toNat)) ∧
    matchOp x k 3 cs t2 = some (decide (∃ c ∈ cs, c.toNat < t2.toNat))

/-- Mask low and mask high, bit by bit: half of a compare value, ANDed with the upper half of `tdata2`, equals its lower half
(42_memory_access_triggers.md section 7, R400 and R401, GK9). -/
def Obligations.MaskedMatches : Prop :=
  ∀ (x : Xlen) (k : Nat) (cs : List Word) (t2 : Word),
    (matchOp x k 4 cs t2 = some true ↔ ∃ c ∈ cs, ∀ b, b < x.bits / 2 →
      (c.getLsbD b && t2.getLsbD (b + x.bits / 2)) = t2.getLsbD b) ∧
    ((∀ c ∈ cs, x.trunc c = c) → x.trunc t2 = t2 →
      (matchOp x k 5 cs t2 = some true ↔ ∃ c ∈ cs, ∀ b, b < x.bits / 2 →
        (c.getLsbD (b + x.bits / 2) && t2.getLsbD (b + x.bits / 2)) = t2.getLsbD b))

/-- R402: 8, 9, 12 and 13 hold exactly when 0, 1, 4 and 5 do not, for the same compare values. -/
def Obligations.NegatedMatches : Prop :=
  ∀ (x : Xlen) (k op : Nat) (cs : List Word) (t2 : Word) (b : Bool), op = 0 ∨ op = 1 ∨ op = 4 ∨ op = 5 → cs ≠ [] →
    matchOp x k op cs t2 = some b → matchOp x k (op + 8) cs t2 = some (!b)

/-- NAPOT: with the lowest 0 bit of `tdata2` at index `z`, a supported range holds a compare value exactly if both agree above bit
`z` (42_memory_access_triggers.md section 7, R397, GK8). A range that is not supported has no meaning, and no answer: 93
U15. -/
def Obligations.NapotMatches : Prop :=
  ∀ (x : Xlen) (k z : Nat) (cs : List Word) (t2 : Word), cs ≠ [] → (∀ b, b < z → t2.getLsbD b = true) → t2.getLsbD z = false →
    z < x.bits →
    (z + 1 ≤ k ∧ z + 1 < x.bits →
      matchOp x k 1 cs t2 = some (decide (∃ c ∈ cs, c.toNat / 2 ^ (z + 1) = t2.toNat / 2 ^ (z + 1)))) ∧
    (¬(z + 1 ≤ k ∧ z + 1 < x.bits) → matchOp x k 1 cs t2 = none)

/-- R385: only a trigger with size 0 and `select` = 0 matches a cache operation. -/
def Obligations.CacheOperationsNeedSizeAndSelectZero : Prop :=
  ∀ (s : State) (i : Nat) (t : Trigger) (ea : Word) (p ph : Bool) (r : Rank),
    s.ownVerdict i t (.cacheOp ea p ph) r ≠ .no → ∃ a : AccessSel, t.accessSel s.xlen = some a ∧ a.size = .any ∧ a.select = false

/-- The byte mask: with `sselect` = 1 the condition holds exactly if every byte of `svalue` that is in view and not masked equals the
byte of `scontext` (48_textra.md, R530 and R531; the condition for value 1 is the spec's own inference).
That a byte whose mask bit is not implemented is compared is the model's choice, log entry 63. -/
def Obligations.ByteMaskSelectsBytes : Prop :=
  ∀ (s : State) (e : Textra), e.sselect = 1 →
    (s.sOk e = true ↔ ∀ k, k < 4 → e.sbytemask.getLsbD k = false →
      e.svalue.extractLsb' (8 * k) 8 = s.scontextLow.extractLsb' (8 * k) 8)

/-- "Triggers do not fire while in Debug Mode": no event is matched there, no interrupt or exception trigger matches a trap that comes
from there, no boundary fires anything, and no trigger counts an instruction (41_trigger_common.md section 1, R321; that nothing
matches either is decision D9). -/
def Obligations.NothingFiresInDebugMode : Prop :=
  ∀ (s : State), s.mode = .debug →
    (∀ e r, s.observe e r = .go s) ∧
    (∀ (h : State) (interrupt nmi : Bool) (code i : Nat) (t : Trigger), h.trapMatches s.mode interrupt nmi code i t = false) ∧
    (∀ sigs, s.boundaryDues sigs = [] ∧ ∃ t, s.boundary sigs = .go t ∧ t.outbox = s.outbox ∧ t.pc = s.pc ∧ t.mode = .debug ∧
      t.trigs.map Trigger.tdata1 = s.trigs.map Trigger.tdata1) ∧
    (∀ now wrote, State.countedTrigs s s now s.mode wrote = now)

/-- Both reentrancy protections keep interrupt and exception triggers with action 0 from matching a trap that M-mode handles, and
hold back every action 0 trigger at the handler's first instruction (60_exceptions.md section 3, R569; 46_itrigger_etrigger.md
section 3, R504, decision D24). -/
def Obligations.ProtectionSparesMachineHandlers : Prop :=
  ∀ (s : State) (md : Mode) (interrupt nmi : Bool) (code i : Nat) (v : Word) (t : Trigger),
    s.cfg.reentrancy = .ieGating ∨ (s.cfg.reentrancy = .tcontrol ∧ s.cfg.hasTcontrol = true) → t.tdata1.action = 0 →
    (s.afterHostTrap .m interrupt code v).trapMatches md interrupt nmi code i t = false ∧
    (s.afterHostTrap .m interrupt code v).holdsBack t.tdata1 .m = true

/-! ## Firing -/

/-- Triggers whose actions are neither 0 nor 1 do not affect the hart, no reentrancy protection holds them back, and they fire
independently of those with action 0 or 1: their signals are handed out whatever else happens (41_trigger_common.md section 2).
That they come in the order of the list is the model's choice, log entry 56. -/
def Obligations.SignalsDoNotStopTheHart : Prop :=
  ∀ (s : State) (ds : List Due), (∀ d ∈ ds, d.action ≠ 0 ∧ d.action ≠ 1) →
    (∃ t, s.serve ds = .go t ∧ t.pc = s.pc ∧ t.mode = s.mode ∧ t.host = s.host ∧ t.x = s.x ∧ t.trapM = s.trapM ∧
      t.trapS = s.trapS ∧ t.trapVS = s.trapVS ∧ t.dpc = s.dpc ∧
      t.outbox = s.outbox ++ ds.filterMap fun d => actionSignal d.action) ∧
    (∀ d ∈ ds, ∀ md, s.holdsBack d.tdata1 md = false) ∧
    (∀ (es : List Due) (t : State), s.serve es = .go t ∨ s.serve es = .stop t →
      ∃ more, t.outbox = s.outbox ++ (es.filterMap fun d => actionSignal d.action) ++ more)

/-- When several triggers fire at once, `hit`, if implemented, is set for all of them, and each keeps its type (41_trigger_common.md
section 3, R342); of type 6 the two bits are the code of the time at which it fires (R341, 11_state_trigger_types.md R105). Each
trigger is listed once and still has the type it matched with. -/
def Obligations.HitIsSetForAll : Prop :=
  ∀ (s : State) (ds : List Due), (ds.map Due.trig).Nodup → ∀ d ∈ ds, ∀ t : Trigger, s.trigs[d.trig]? = some t →
    t.tdata1.typ = d.tdata1.typ → ∃ u : Trigger, (s.fireAll ds).trigs[d.trig]? = some u ∧
      u.tdata1.typ = t.tdata1.typ ∧ (∀ f, u.tdata1.view = .mcontrol f → t.impl.mcontrol.hit = true → f.hit = true) ∧
      (∀ f, u.tdata1.view = .icount f → t.impl.icount.hit = true → f.hit = true) ∧
      (∀ f, u.tdata1.view = .itrigger f → t.impl.itrigger.hit = true → f.hit = true) ∧
      (∀ f, u.tdata1.view = .etrigger f → t.impl.etrigger.hit = true → f.hit = true) ∧
      (∀ f, u.tdata1.view = .tmext f → t.impl.tmext.hit = true → f.hit = true) ∧
      (∀ f, u.tdata1.view = .mcontrol6 f → t.impl.mcontrol6.hit = true → f.hit0 = (d.firedAt != .after)) ∧
      (∀ f, u.tdata1.view = .mcontrol6 f → t.impl.mcontrol6.hit1 = true → f.hit1 = (d.firedAt != .before))

/-- However many triggers ask for action 0, and none for action 1, one breakpoint exception is taken: code 3, the address of the
next instruction, and one of the candidates for `tval` (60_exceptions.md sections 1 and 2, R552, R553, R557; the exception
program counter is decision D14). That the signals of the other fires come first is the model's choice, log entry 56; the mode it is taken to is
R575's, but for the case of log entry 25. -/
def Obligations.BreakpointIsTakenOnce : Prop :=
  ∀ (s : State) (ds : List Due), (∃ d ∈ ds, d.action = 0 ∧ d.tvals ≠ []) → (∀ d ∈ ds, d.action ≠ 1) →
    ∃ t v, s.serve ds = .stop t ∧ (∃ d ∈ ds, d.action = 0 ∧ v ∈ d.tvals) ∧
      t.trapRegs (s.trapTarget 3) = ⟨s.pc, false, 3, v⟩ ∧ t.mode = (s.trapTarget 3).mode ∧
      t.outbox = s.outbox ++ (ds.filterMap fun d => actionSignal d.action) ++ [.breakpoint v] ∧ t.x = s.x ∧ t.dpc = s.dpc

/-- Action 1, alone or with action 0 where only Debug Mode entry takes place: the hart enters Debug Mode, `dpc` holds the address of
the next instruction, and no trap is taken (41_trigger_common.md section 2, R332; 60_exceptions.md sections 2 and 5, R558, R579). That
the signals of the other fires come first is the model's choice, log entry 56. -/
def Obligations.DebugEntryIsNoTrap : Prop :=
  ∀ (s : State) (ds : List Due), (∃ d ∈ ds, d.action = 1) → s.cfg.bothActions = .debugOnly ∨ (∀ d ∈ ds, d.action ≠ 0) →
    ∃ t, s.serve ds = .stop t ∧ t.mode = .debug ∧ t.dpc = s.pc ∧ t.pc = s.pc ∧ t.trapM = s.trapM ∧ t.trapS = s.trapS ∧
      t.trapVS = s.trapVS ∧ t.mte = s.mte ∧ t.mpte = s.mpte ∧ t.x = s.x ∧
      t.outbox = s.outbox ++ (ds.filterMap fun d => actionSignal d.action) ++ [.enterDebug s.pc]

/-- R575: the breakpoint follows the hart's delegation by bit 3 of `medeleg` and `hedeleg`. Under solution 2 every breakpoint goes to
M-mode, because bit 3 of `medeleg` is hard-wired to 0 (60_exceptions.md section 4, R576). -/
def Obligations.BreakpointDelegation : Prop :=
  ∀ s : State, (s.host.medeleg.getLsbD 3 = false → s.trapTarget 3 = .m) ∧ (s.cfg.reentrancy = .tcontrol → s.trapTarget 3 = .m) ∧
    (s.cfg.reentrancy ≠ .tcontrol → s.cfg.hasS = true →
    (s.host.medeleg.getLsbD 3 = true → s.mode = .s ∨ s.mode = .u → s.trapTarget 3 = .s) ∧
    (s.host.medeleg.getLsbD 3 = true → s.host.hedeleg.getLsbD 3 = true → s.cfg.hasH = true → s.mode = .vs ∨ s.mode = .vu →
      s.trapTarget 3 = .vs))

/-- A trap into M-mode copies `mte` to `mpte` and clears `mte`, a trap to another mode and Debug Mode entry change neither, and
`mret` copies `mpte` back and keeps it (60_exceptions.md section 3, R571 and R572, GK6). -/
def Obligations.TcontrolIsStacked : Prop :=
  ∀ (s : State) (target : Handler) (interrupt nmi : Bool) (code : Nat) (v : Word), s.cfg.hasTcontrol = true →
    (target = .m → (s.takeTrap target interrupt nmi code v).mpte = s.mte ∧
      (s.takeTrap target interrupt nmi code v).mte = false) ∧
    (target ≠ .m → (s.takeTrap target interrupt nmi code v).mpte = s.mpte ∧
      (s.takeTrap target interrupt nmi code v).mte = s.mte) ∧
    s.enterDebug.mte = s.mte ∧ s.enterDebug.mpte = s.mpte ∧
    s.returnFromTrap.mte = s.mpte ∧ s.returnFromTrap.mpte = s.mpte

/-- An instruction retires, which does not write the trigger, or a trap is taken, and an icount trigger matches. With `count` 1,
`pending` becomes set and `count` becomes 0 unless it is hard-wired to 1; with `count` 0 nothing changes (45_icount.md section 2,
R475 and R476). Above 1 it goes down by 1: R474, which is the spec's restoration GK19. That a trap is counted by the protection
before it and the context filter after it is log entry 17 (DEDUCED). -/
def Obligations.CountReachesZeroAndStays : Prop :=
  ∀ (s : State) (i : Nat) (t : Trigger) (f : Icount) (target : Handler) (interrupt nmi : Bool) (code : Nat) (v : Word),
    s.trigs[i]? = some t → t.tdata1.view = .icount f → t.tdata1.enabledIn s.mode = true → s.unblocked i = true →
    s.holdsBack t.tdata1 s.mode = false →
    ∀ after : State,
      (after = State.retire s s none ∧ s.textraOk t = true) ∨
        (after = s.takeTrap target interrupt nmi code v ∧
          (s.afterHostTrap target interrupt code v).textraOk t = true) →
      ∃ u : Trigger, after.trigs[i]? = some u ∧
        (f.count = 1 → u.tdata1.view =
          .icount { f with pending := true, count := if t.impl.countHardwired then 1 else 0 }) ∧
        (f.count = 0 → u.tdata1.view = .icount f) ∧
        (1 < f.count.toNat → u.tdata1.view = .icount { f with count := f.count - 1 })

/-- Just before any further instruction in an enabled mode, a pending icount trigger that the protection does not hold back fires, among
any number of triggers and whatever its action: it is one of the fires of the boundary, its signal is handed out, `hit` is set if
implemented, and if `count` is hard-wired to 1 every enable is cleared. `pending` is cleared; where the fires of the boundary trap, the
trap counts as well, so that it may be set again if `count` is not 0. With action 1 the hart enters Debug Mode; with action 0 it does, or
takes the breakpoint (45_icount.md section 3, R478 and R479; 60_exceptions.md section 2, R558). The mode the
breakpoint is taken to is R575's, but for the case of log entry 25. In a precise implementation. Where what
comes next is no instruction, it stays pending: R478 fires it at an `Exec` event. -/
def Obligations.PendingCountFires : Prop :=
  ∀ (s : State) (sigs : List HostItem) (i : Nat) (t : Trigger) (f : Icount), s.trigs[i]? = some t →
    t.tdata1.view = .icount f → f.pending = true → t.tdata1.enabledIn s.mode = true → s.mayFire t.tdata1 = true →
    s.cfg.precise = true →
    (s.execNext = false → (∀ d ∈ s.waiting, d.trig ≠ i) → (∀ d ∈ s.boundaryDues sigs, d.trig ≠ i) ∧
      ∀ a, s.boundary sigs = .go a ∨ s.boundary sigs = .stop a →
        ∃ (u : Trigger) (n : Icount), a.trigs[i]? = some u ∧ u.tdata1.view = .icount n ∧ n.pending = true) ∧
    (s.execNext = true →
    boundaryDue i t ∈ s.boundaryDues sigs ∧
    (s.cfg.bothActions = .debugOnly → ∃ a, s.boundary sigs = .go a ∨ s.boundary sigs = .stop a) ∧
    ∀ a, s.boundary sigs = .go a ∨ s.boundary sigs = .stop a →
      ∃ (u : Trigger) (n : Icount) (out : List Signal), a.trigs[i]? = some u ∧ u.tdata1.view = .icount n ∧
        (t.impl.icount.hit = true → n.hit = true) ∧
        (s.boundary sigs = .go a ∨ f.count = 0 ∨ t.impl.countHardwired = true → n.pending = false ∧ n.count = f.count) ∧
        (t.impl.countHardwired = true → n.m = false ∧ n.s = false ∧ n.u = false ∧ n.vs = false ∧ n.vu = false) ∧
        (t.impl.countHardwired = false → n.m = f.m ∧ n.s = f.s ∧ n.u = f.u ∧ n.vs = f.vs ∧ n.vu = f.vu) ∧
        a.outbox = s.outbox ++ out ∧ (∀ g, actionSignal t.tdata1.action = some g → g ∈ out) ∧
        (t.tdata1.action = 1 → s.boundary sigs = .stop a ∧ a.mode = .debug) ∧
        (t.tdata1.action = 0 → s.boundary sigs = .stop a ∧
          (a.mode = .debug ∨ ∃ v, a.trapRegs (s.trapTarget 3) = ⟨s.pc, false, 3, v⟩ ∧ a.mode = (s.trapTarget 3).mode)))

/-- A boundary at which no earlier match is waiting, so that only icount and external triggers fire, writes zero to `tval` on the
breakpoint trap (45_icount.md section 3, R480; 47_tmexttrigger.md, R515). -/
def Obligations.BoundaryBreakpointWritesZeroTval : Prop :=
  ∀ (s t : State) (sigs : List HostItem), s.waiting = [] → s.boundary sigs = .stop t → t.mode ≠ .debug →
    ∃ target : Handler, t.trapRegs target = ⟨s.pc, false, 3, 0⟩ ∧ t.mode = target.mode

/-- R348: a chain fires only if every member was matched by the same instruction, and a type 2 chain only if all have the same
`timing`. -/
def Obligations.ChainFiresOnlyWhole : Prop :=
  ∀ (s : State) (e : Event) (r : Rank) (new : List Nat) (d : Due), d ∈ s.completed e r new →
    linkAt s.trigs d.trig = false ∧ s.hasMatched d.trig = true ∧
    ∀ j, j < d.trig → (∀ k, j ≤ k → k < d.trig → linkAt s.trigs k = true) →
      s.hasMatched j = true ∧ timingAt s.trigs j = timingAt s.trigs d.trig

/-! ## The whole machine -/

/-- The invariant holds after reset in every well-formed implementation (70_reset_and_hazards.md section 1). The value that
`tdata2` resets to is a parameter, log entry 1. -/
def Obligations.ResetMeetsTheInvariant : Prop :=
  ∀ (cfg : Config) (impls : List TrigImpl), wf cfg impls = true → (State.resetWith cfg impls).invariant = true

/-- The machine's own reset state meets the invariant. -/
def Obligations.ResetStateMeetsTheInvariant : Prop := State.reset.invariant = true ∧ guarded State.reset.trigs = true

/-- R604 (a), which the spec marks as derived: after reset no trigger can match and none is due, in any implementation; and what the
spec gives a reset value holds it (70_reset_and_hazards.md section 1, R602 and R603): `tselect` is `TSELECT_RESET`, the contexts and
`tcontrol` are 0, `type` is `RESET_TYPE`, the parameters that `tinfo` shows are the implementation's, and of each view `maskmax` is
`MASKMAX`, `count` is 1, and every other field is 0 but those whose 0 is not supported (R604 (c)): `timing` is 1 only where 0 is not
supported, `action` and `match` are 0 where 0 is. (What else `action` and `match` hold is log entry 12.) The ignored bits of type 15 are
`RESET_DATA`. That `tdata3` is 0 under reset type 7 or 15 is the model's choice, log entry 1. -/
def Obligations.AfterResetNothingMatches : Prop :=
  ∀ (cfg : Config) (impls : List TrigImpl) (t : Trigger) (i : Nat), (State.resetWith cfg impls).trigs[i]? = some t →
    t.tdata1.view.enablesClear = true ∧ t.tdata1.dmode = false ∧ t.extHeld = false ∧ t.tdata3 = {} ∧
    (wfTrig cfg t.impl = true → t.tdata1.typ = t.impl.resetType ∧
      (t.impl.resetType = 15 → t.tdata1.view = .disabled t.impl.resetData)) ∧
    (∀ f, t.tdata1.view = .mcontrol f →
      f = { maskmax := t.impl.maskmax, timing := !t.impl.timing0.getLsbD 0, action := f.action, matchOp := f.matchOp } ∧
      (actionLegal cfg t.impl.mcontrol false 0 = true → f.action = 0) ∧
      (matchLegal t.impl.mcontrol (t.impl.maskmax != 0) 0 = true → f.matchOp = 0)) ∧
    (∀ f, t.tdata1.view = .icount f → (wfCount t.impl = true → f = { count := 1, action := f.action }) ∧
      (actionLegal cfg t.impl.icount false 0 = true → f.action = 0)) ∧
    (∀ f, t.tdata1.view = .itrigger f → f = { action := f.action } ∧
      (actionLegal cfg t.impl.itrigger false 0 = true → f.action = 0)) ∧
    (∀ f, t.tdata1.view = .etrigger f → f = { action := f.action } ∧
      (actionLegal cfg t.impl.etrigger false 0 = true → f.action = 0)) ∧
    (∀ f, t.tdata1.view = .mcontrol6 f → f = { action := f.action, matchOp := f.matchOp } ∧
      (actionLegal cfg t.impl.mcontrol6 false 0 = true → f.action = 0) ∧
      (matchLegal t.impl.mcontrol6 (t.impl.maskmax6 != 0) 0 = true → f.matchOp = 0)) ∧
    (∀ f, t.tdata1.view = .tmext f → f = { action := f.action } ∧
      (actionLegal cfg t.impl.tmext false 0 = true → f.action = 0)) ∧
    impls[i]? = some t.impl ∧ (State.resetWith cfg impls).cfg = cfg ∧ (State.resetWith cfg impls).tselect = cfg.tselectReset ∧
    (State.resetWith cfg impls).scontext = 0 ∧ (State.resetWith cfg impls).mcontext = 0 ∧
    (State.resetWith cfg impls).mte = false ∧ (State.resetWith cfg impls).mpte = false ∧
    (State.resetWith cfg impls).waiting = []

/-- EVERY STEP KEEPS THE INVARIANT: the configuration stays well-formed, every register holds a legal value ("write-any-read-legal",
40_csr_access.md section 4), the unimplemented bits of the contexts stay 0, and no instruction is left half done. -/
def Obligations.StepKeepsTheInvariant : Prop :=
  ∀ s t : State, s.invariant = true → step s = .next t → t.invariant = true

/-- EVERY STEP KEEPS THE GUARD, where the implementation ignores the `dmode` writes of R293: no trigger that M-mode can write comes to
gate one that only a debugger can (40_csr_access.md section 5). -/
def Obligations.StepKeepsTheGuard : Prop :=
  ∀ s t : State, s.cfg.ignoreDmodeSetAfterChain = true → guarded s.trigs = true → step s = .next t → guarded t.trigs = true

/-- NO SOFTWARE OUTSIDE DEBUG MODE changes a debugger's trigger: over a step that starts in another mode every trigger keeps its
`dmode`, and one with `dmode` = 1 keeps `tdata2`, `tdata3` and all of `tdata1` but the status bits that hardware sets (`hit`, `hit1`,
`hit0`, `uncertain`, `count`, `pending`) and the enables that the fire of an icount with hard-wired `count` clears (10_state.md
section 3, R31, and section 8, R65; 40_csr_access.md section 5). That a fire with XLEN 32 below DXLEN keeps the bits XLEN 32 cannot reach
(`sizehi` of type 2) is the model's choice, log entry 58. -/
def Obligations.DebuggersTriggersAreKept : Prop :=
  ∀ s t : State, s.mode ≠ .debug → step s = .next t → ownersKept s.trigs t.trigs

/-- LESS PRIVILEGED MODES REACH NOTHING: over a step that starts below M-mode `tselect` and every trigger's `tdata2`, `tdata3` and all of
`tdata1` but the status bits that hardware sets, and the enables that the fire of an icount with hard-wired `count` clears, are kept;
from every mode but S-mode the `mcontext` value is kept too, and from U-mode and VU-mode the `scontext` value (40_csr_access.md
section 1, R270 and R271). That a fire with XLEN 32 below DXLEN keeps the bits XLEN 32 cannot reach (`sizehi` of type 2) is the model's
choice, log entry 58. -/
def Obligations.LowerModesReachNothing : Prop :=
  ∀ s t : State, s.mode.isMachine = false → step s = .next t →
    t.tselect = s.tselect ∧ t.cfg = s.cfg ∧ List.Forall₂ (fun a b => a.sameConfig b = true) s.trigs t.trigs ∧
    (s.mode ≠ .s → t.mcontext = s.mcontext) ∧ (s.mode.isUser = true → t.scontext = s.scontext)

end
end

