-- ==== Sys2Proof/Laws/State.lean ====
section
/-! SUPPORT. One lemma per field per update of State, true by `rfl`, so that no later proof unfolds an update. -/

namespace Sys2Proof.Machine

/-! ### `tick` -/

@[simp] theorem State.tick_cfg (s : State) : (s.tick).cfg = s.cfg := rfl
@[simp] theorem State.tick_tselect (s : State) : (s.tick).tselect = s.tselect := rfl
@[simp] theorem State.tick_trigs (s : State) : (s.tick).trigs = s.trigs := rfl
@[simp] theorem State.tick_mte (s : State) : (s.tick).mte = s.mte := rfl
@[simp] theorem State.tick_mpte (s : State) : (s.tick).mpte = s.mpte := rfl
@[simp] theorem State.tick_scontext (s : State) : (s.tick).scontext = s.scontext := rfl
@[simp] theorem State.tick_mcontext (s : State) : (s.tick).mcontext = s.mcontext := rfl
@[simp] theorem State.tick_waiting (s : State) : (s.tick).waiting = s.waiting := rfl
@[simp] theorem State.tick_matched (s : State) : (s.tick).matched = s.matched := rfl
@[simp] theorem State.tick_dueAfter (s : State) : (s.tick).dueAfter = s.dueAfter := rfl
@[simp] theorem State.tick_deferred (s : State) : (s.tick).deferred = s.deferred := rfl
@[simp] theorem State.tick_outbox (s : State) : (s.tick).outbox = s.outbox := rfl
@[simp] theorem State.tick_x (s : State) : (s.tick).x = s.x := rfl
@[simp] theorem State.tick_pc (s : State) : (s.tick).pc = s.pc := rfl
@[simp] theorem State.tick_mode (s : State) : (s.tick).mode = s.mode := rfl
@[simp] theorem State.tick_host (s : State) : (s.tick).host = s.host := rfl
@[simp] theorem State.tick_trapM (s : State) : (s.tick).trapM = s.trapM := rfl
@[simp] theorem State.tick_trapS (s : State) : (s.tick).trapS = s.trapS := rfl
@[simp] theorem State.tick_trapVS (s : State) : (s.tick).trapVS = s.trapVS := rfl
@[simp] theorem State.tick_dpc (s : State) : (s.tick).dpc = s.dpc := rfl
@[simp] theorem State.tick_feed (s : State) : (s.tick).feed = s.feed := rfl
@[simp] theorem State.tick_draws (s : State) : (s.tick).draws = s.draws + 1 := rfl

/-! ### `setPc` -/

@[simp] theorem State.setPc_cfg (s : State) (v : Word) : (s.setPc v).cfg = s.cfg := rfl
@[simp] theorem State.setPc_tselect (s : State) (v : Word) : (s.setPc v).tselect = s.tselect := rfl
@[simp] theorem State.setPc_trigs (s : State) (v : Word) : (s.setPc v).trigs = s.trigs := rfl
@[simp] theorem State.setPc_mte (s : State) (v : Word) : (s.setPc v).mte = s.mte := rfl
@[simp] theorem State.setPc_mpte (s : State) (v : Word) : (s.setPc v).mpte = s.mpte := rfl
@[simp] theorem State.setPc_scontext (s : State) (v : Word) : (s.setPc v).scontext = s.scontext := rfl
@[simp] theorem State.setPc_mcontext (s : State) (v : Word) : (s.setPc v).mcontext = s.mcontext := rfl
@[simp] theorem State.setPc_waiting (s : State) (v : Word) : (s.setPc v).waiting = s.waiting := rfl
@[simp] theorem State.setPc_matched (s : State) (v : Word) : (s.setPc v).matched = s.matched := rfl
@[simp] theorem State.setPc_dueAfter (s : State) (v : Word) : (s.setPc v).dueAfter = s.dueAfter := rfl
@[simp] theorem State.setPc_deferred (s : State) (v : Word) : (s.setPc v).deferred = s.deferred := rfl
@[simp] theorem State.setPc_outbox (s : State) (v : Word) : (s.setPc v).outbox = s.outbox := rfl
@[simp] theorem State.setPc_x (s : State) (v : Word) : (s.setPc v).x = s.x := rfl
@[simp] theorem State.setPc_pc (s : State) (v : Word) : (s.setPc v).pc = v := rfl
@[simp] theorem State.setPc_mode (s : State) (v : Word) : (s.setPc v).mode = s.mode := rfl
@[simp] theorem State.setPc_host (s : State) (v : Word) : (s.setPc v).host = s.host := rfl
@[simp] theorem State.setPc_trapM (s : State) (v : Word) : (s.setPc v).trapM = s.trapM := rfl
@[simp] theorem State.setPc_trapS (s : State) (v : Word) : (s.setPc v).trapS = s.trapS := rfl
@[simp] theorem State.setPc_trapVS (s : State) (v : Word) : (s.setPc v).trapVS = s.trapVS := rfl
@[simp] theorem State.setPc_dpc (s : State) (v : Word) : (s.setPc v).dpc = s.dpc := rfl
@[simp] theorem State.setPc_feed (s : State) (v : Word) : (s.setPc v).feed = s.feed := rfl
@[simp] theorem State.setPc_draws (s : State) (v : Word) : (s.setPc v).draws = s.draws := rfl

/-! ### `setMode` -/

@[simp] theorem State.setMode_cfg (s : State) (md : Mode) : (s.setMode md).cfg = s.cfg := rfl
@[simp] theorem State.setMode_tselect (s : State) (md : Mode) : (s.setMode md).tselect = s.tselect := rfl
@[simp] theorem State.setMode_trigs (s : State) (md : Mode) : (s.setMode md).trigs = s.trigs := rfl
@[simp] theorem State.setMode_mte (s : State) (md : Mode) : (s.setMode md).mte = s.mte := rfl
@[simp] theorem State.setMode_mpte (s : State) (md : Mode) : (s.setMode md).mpte = s.mpte := rfl
@[simp] theorem State.setMode_scontext (s : State) (md : Mode) : (s.setMode md).scontext = s.scontext := rfl
@[simp] theorem State.setMode_mcontext (s : State) (md : Mode) : (s.setMode md).mcontext = s.mcontext := rfl
@[simp] theorem State.setMode_waiting (s : State) (md : Mode) : (s.setMode md).waiting = s.waiting := rfl
@[simp] theorem State.setMode_matched (s : State) (md : Mode) : (s.setMode md).matched = s.matched := rfl
@[simp] theorem State.setMode_dueAfter (s : State) (md : Mode) : (s.setMode md).dueAfter = s.dueAfter := rfl
@[simp] theorem State.setMode_deferred (s : State) (md : Mode) : (s.setMode md).deferred = s.deferred := rfl
@[simp] theorem State.setMode_outbox (s : State) (md : Mode) : (s.setMode md).outbox = s.outbox := rfl
@[simp] theorem State.setMode_x (s : State) (md : Mode) : (s.setMode md).x = s.x := rfl
@[simp] theorem State.setMode_pc (s : State) (md : Mode) : (s.setMode md).pc = s.pc := rfl
@[simp] theorem State.setMode_mode (s : State) (md : Mode) : (s.setMode md).mode = md := rfl
@[simp] theorem State.setMode_host (s : State) (md : Mode) : (s.setMode md).host = s.host := rfl
@[simp] theorem State.setMode_trapM (s : State) (md : Mode) : (s.setMode md).trapM = s.trapM := rfl
@[simp] theorem State.setMode_trapS (s : State) (md : Mode) : (s.setMode md).trapS = s.trapS := rfl
@[simp] theorem State.setMode_trapVS (s : State) (md : Mode) : (s.setMode md).trapVS = s.trapVS := rfl
@[simp] theorem State.setMode_dpc (s : State) (md : Mode) : (s.setMode md).dpc = s.dpc := rfl
@[simp] theorem State.setMode_feed (s : State) (md : Mode) : (s.setMode md).feed = s.feed := rfl
@[simp] theorem State.setMode_draws (s : State) (md : Mode) : (s.setMode md).draws = s.draws := rfl

/-! ### `setHost` -/

@[simp] theorem State.setHost_cfg (s : State) (h : HostCsrs) : (s.setHost h).cfg = s.cfg := rfl
@[simp] theorem State.setHost_tselect (s : State) (h : HostCsrs) : (s.setHost h).tselect = s.tselect := rfl
@[simp] theorem State.setHost_trigs (s : State) (h : HostCsrs) : (s.setHost h).trigs = s.trigs := rfl
@[simp] theorem State.setHost_mte (s : State) (h : HostCsrs) : (s.setHost h).mte = s.mte := rfl
@[simp] theorem State.setHost_mpte (s : State) (h : HostCsrs) : (s.setHost h).mpte = s.mpte := rfl
@[simp] theorem State.setHost_scontext (s : State) (h : HostCsrs) : (s.setHost h).scontext = s.scontext := rfl
@[simp] theorem State.setHost_mcontext (s : State) (h : HostCsrs) : (s.setHost h).mcontext = s.mcontext := rfl
@[simp] theorem State.setHost_waiting (s : State) (h : HostCsrs) : (s.setHost h).waiting = s.waiting := rfl
@[simp] theorem State.setHost_matched (s : State) (h : HostCsrs) : (s.setHost h).matched = s.matched := rfl
@[simp] theorem State.setHost_dueAfter (s : State) (h : HostCsrs) : (s.setHost h).dueAfter = s.dueAfter := rfl
@[simp] theorem State.setHost_deferred (s : State) (h : HostCsrs) : (s.setHost h).deferred = s.deferred := rfl
@[simp] theorem State.setHost_outbox (s : State) (h : HostCsrs) : (s.setHost h).outbox = s.outbox := rfl
@[simp] theorem State.setHost_x (s : State) (h : HostCsrs) : (s.setHost h).x = s.x := rfl
@[simp] theorem State.setHost_pc (s : State) (h : HostCsrs) : (s.setHost h).pc = s.pc := rfl
@[simp] theorem State.setHost_mode (s : State) (h : HostCsrs) : (s.setHost h).mode = s.mode := rfl
@[simp] theorem State.setHost_host (s : State) (h : HostCsrs) : (s.setHost h).host = h := rfl
@[simp] theorem State.setHost_trapM (s : State) (h : HostCsrs) : (s.setHost h).trapM = s.trapM := rfl
@[simp] theorem State.setHost_trapS (s : State) (h : HostCsrs) : (s.setHost h).trapS = s.trapS := rfl
@[simp] theorem State.setHost_trapVS (s : State) (h : HostCsrs) : (s.setHost h).trapVS = s.trapVS := rfl
@[simp] theorem State.setHost_dpc (s : State) (h : HostCsrs) : (s.setHost h).dpc = s.dpc := rfl
@[simp] theorem State.setHost_feed (s : State) (h : HostCsrs) : (s.setHost h).feed = s.feed := rfl
@[simp] theorem State.setHost_draws (s : State) (h : HostCsrs) : (s.setHost h).draws = s.draws := rfl

/-! ### `setRegs` -/

@[simp] theorem State.setRegs_cfg (s : State) (r : Vector Word 32) : (s.setRegs r).cfg = s.cfg := rfl
@[simp] theorem State.setRegs_tselect (s : State) (r : Vector Word 32) : (s.setRegs r).tselect = s.tselect := rfl
@[simp] theorem State.setRegs_trigs (s : State) (r : Vector Word 32) : (s.setRegs r).trigs = s.trigs := rfl
@[simp] theorem State.setRegs_mte (s : State) (r : Vector Word 32) : (s.setRegs r).mte = s.mte := rfl
@[simp] theorem State.setRegs_mpte (s : State) (r : Vector Word 32) : (s.setRegs r).mpte = s.mpte := rfl
@[simp] theorem State.setRegs_scontext (s : State) (r : Vector Word 32) : (s.setRegs r).scontext = s.scontext := rfl
@[simp] theorem State.setRegs_mcontext (s : State) (r : Vector Word 32) : (s.setRegs r).mcontext = s.mcontext := rfl
@[simp] theorem State.setRegs_waiting (s : State) (r : Vector Word 32) : (s.setRegs r).waiting = s.waiting := rfl
@[simp] theorem State.setRegs_matched (s : State) (r : Vector Word 32) : (s.setRegs r).matched = s.matched := rfl
@[simp] theorem State.setRegs_dueAfter (s : State) (r : Vector Word 32) : (s.setRegs r).dueAfter = s.dueAfter := rfl
@[simp] theorem State.setRegs_deferred (s : State) (r : Vector Word 32) : (s.setRegs r).deferred = s.deferred := rfl
@[simp] theorem State.setRegs_outbox (s : State) (r : Vector Word 32) : (s.setRegs r).outbox = s.outbox := rfl
@[simp] theorem State.setRegs_x (s : State) (r : Vector Word 32) : (s.setRegs r).x = r := rfl
@[simp] theorem State.setRegs_pc (s : State) (r : Vector Word 32) : (s.setRegs r).pc = s.pc := rfl
@[simp] theorem State.setRegs_mode (s : State) (r : Vector Word 32) : (s.setRegs r).mode = s.mode := rfl
@[simp] theorem State.setRegs_host (s : State) (r : Vector Word 32) : (s.setRegs r).host = s.host := rfl
@[simp] theorem State.setRegs_trapM (s : State) (r : Vector Word 32) : (s.setRegs r).trapM = s.trapM := rfl
@[simp] theorem State.setRegs_trapS (s : State) (r : Vector Word 32) : (s.setRegs r).trapS = s.trapS := rfl
@[simp] theorem State.setRegs_trapVS (s : State) (r : Vector Word 32) : (s.setRegs r).trapVS = s.trapVS := rfl
@[simp] theorem State.setRegs_dpc (s : State) (r : Vector Word 32) : (s.setRegs r).dpc = s.dpc := rfl
@[simp] theorem State.setRegs_feed (s : State) (r : Vector Word 32) : (s.setRegs r).feed = s.feed := rfl
@[simp] theorem State.setRegs_draws (s : State) (r : Vector Word 32) : (s.setRegs r).draws = s.draws := rfl

/-! ### `setDpc` -/

@[simp] theorem State.setDpc_cfg (s : State) (v : Word) : (s.setDpc v).cfg = s.cfg := rfl
@[simp] theorem State.setDpc_tselect (s : State) (v : Word) : (s.setDpc v).tselect = s.tselect := rfl
@[simp] theorem State.setDpc_trigs (s : State) (v : Word) : (s.setDpc v).trigs = s.trigs := rfl
@[simp] theorem State.setDpc_mte (s : State) (v : Word) : (s.setDpc v).mte = s.mte := rfl
@[simp] theorem State.setDpc_mpte (s : State) (v : Word) : (s.setDpc v).mpte = s.mpte := rfl
@[simp] theorem State.setDpc_scontext (s : State) (v : Word) : (s.setDpc v).scontext = s.scontext := rfl
@[simp] theorem State.setDpc_mcontext (s : State) (v : Word) : (s.setDpc v).mcontext = s.mcontext := rfl
@[simp] theorem State.setDpc_waiting (s : State) (v : Word) : (s.setDpc v).waiting = s.waiting := rfl
@[simp] theorem State.setDpc_matched (s : State) (v : Word) : (s.setDpc v).matched = s.matched := rfl
@[simp] theorem State.setDpc_dueAfter (s : State) (v : Word) : (s.setDpc v).dueAfter = s.dueAfter := rfl
@[simp] theorem State.setDpc_deferred (s : State) (v : Word) : (s.setDpc v).deferred = s.deferred := rfl
@[simp] theorem State.setDpc_outbox (s : State) (v : Word) : (s.setDpc v).outbox = s.outbox := rfl
@[simp] theorem State.setDpc_x (s : State) (v : Word) : (s.setDpc v).x = s.x := rfl
@[simp] theorem State.setDpc_pc (s : State) (v : Word) : (s.setDpc v).pc = s.pc := rfl
@[simp] theorem State.setDpc_mode (s : State) (v : Word) : (s.setDpc v).mode = s.mode := rfl
@[simp] theorem State.setDpc_host (s : State) (v : Word) : (s.setDpc v).host = s.host := rfl
@[simp] theorem State.setDpc_trapM (s : State) (v : Word) : (s.setDpc v).trapM = s.trapM := rfl
@[simp] theorem State.setDpc_trapS (s : State) (v : Word) : (s.setDpc v).trapS = s.trapS := rfl
@[simp] theorem State.setDpc_trapVS (s : State) (v : Word) : (s.setDpc v).trapVS = s.trapVS := rfl
@[simp] theorem State.setDpc_dpc (s : State) (v : Word) : (s.setDpc v).dpc = v := rfl
@[simp] theorem State.setDpc_feed (s : State) (v : Word) : (s.setDpc v).feed = s.feed := rfl
@[simp] theorem State.setDpc_draws (s : State) (v : Word) : (s.setDpc v).draws = s.draws := rfl

/-! ### `setSelect` -/

@[simp] theorem State.setSelect_cfg (s : State) (v : Word) : (s.setSelect v).cfg = s.cfg := rfl
@[simp] theorem State.setSelect_tselect (s : State) (v : Word) : (s.setSelect v).tselect = v := rfl
@[simp] theorem State.setSelect_trigs (s : State) (v : Word) : (s.setSelect v).trigs = s.trigs := rfl
@[simp] theorem State.setSelect_mte (s : State) (v : Word) : (s.setSelect v).mte = s.mte := rfl
@[simp] theorem State.setSelect_mpte (s : State) (v : Word) : (s.setSelect v).mpte = s.mpte := rfl
@[simp] theorem State.setSelect_scontext (s : State) (v : Word) : (s.setSelect v).scontext = s.scontext := rfl
@[simp] theorem State.setSelect_mcontext (s : State) (v : Word) : (s.setSelect v).mcontext = s.mcontext := rfl
@[simp] theorem State.setSelect_waiting (s : State) (v : Word) : (s.setSelect v).waiting = s.waiting := rfl
@[simp] theorem State.setSelect_matched (s : State) (v : Word) : (s.setSelect v).matched = s.matched := rfl
@[simp] theorem State.setSelect_dueAfter (s : State) (v : Word) : (s.setSelect v).dueAfter = s.dueAfter := rfl
@[simp] theorem State.setSelect_deferred (s : State) (v : Word) : (s.setSelect v).deferred = s.deferred := rfl
@[simp] theorem State.setSelect_outbox (s : State) (v : Word) : (s.setSelect v).outbox = s.outbox := rfl
@[simp] theorem State.setSelect_x (s : State) (v : Word) : (s.setSelect v).x = s.x := rfl
@[simp] theorem State.setSelect_pc (s : State) (v : Word) : (s.setSelect v).pc = s.pc := rfl
@[simp] theorem State.setSelect_mode (s : State) (v : Word) : (s.setSelect v).mode = s.mode := rfl
@[simp] theorem State.setSelect_host (s : State) (v : Word) : (s.setSelect v).host = s.host := rfl
@[simp] theorem State.setSelect_trapM (s : State) (v : Word) : (s.setSelect v).trapM = s.trapM := rfl
@[simp] theorem State.setSelect_trapS (s : State) (v : Word) : (s.setSelect v).trapS = s.trapS := rfl
@[simp] theorem State.setSelect_trapVS (s : State) (v : Word) : (s.setSelect v).trapVS = s.trapVS := rfl
@[simp] theorem State.setSelect_dpc (s : State) (v : Word) : (s.setSelect v).dpc = s.dpc := rfl
@[simp] theorem State.setSelect_feed (s : State) (v : Word) : (s.setSelect v).feed = s.feed := rfl
@[simp] theorem State.setSelect_draws (s : State) (v : Word) : (s.setSelect v).draws = s.draws := rfl

/-! ### `setTrigs` -/

@[simp] theorem State.setTrigs_cfg (s : State) (ts : List Trigger) : (s.setTrigs ts).cfg = s.cfg := rfl
@[simp] theorem State.setTrigs_tselect (s : State) (ts : List Trigger) : (s.setTrigs ts).tselect = s.tselect := rfl
@[simp] theorem State.setTrigs_trigs (s : State) (ts : List Trigger) : (s.setTrigs ts).trigs = ts := rfl
@[simp] theorem State.setTrigs_mte (s : State) (ts : List Trigger) : (s.setTrigs ts).mte = s.mte := rfl
@[simp] theorem State.setTrigs_mpte (s : State) (ts : List Trigger) : (s.setTrigs ts).mpte = s.mpte := rfl
@[simp] theorem State.setTrigs_scontext (s : State) (ts : List Trigger) : (s.setTrigs ts).scontext = s.scontext := rfl
@[simp] theorem State.setTrigs_mcontext (s : State) (ts : List Trigger) : (s.setTrigs ts).mcontext = s.mcontext := rfl
@[simp] theorem State.setTrigs_waiting (s : State) (ts : List Trigger) : (s.setTrigs ts).waiting = s.waiting := rfl
@[simp] theorem State.setTrigs_matched (s : State) (ts : List Trigger) : (s.setTrigs ts).matched = s.matched := rfl
@[simp] theorem State.setTrigs_dueAfter (s : State) (ts : List Trigger) : (s.setTrigs ts).dueAfter = s.dueAfter := rfl
@[simp] theorem State.setTrigs_deferred (s : State) (ts : List Trigger) : (s.setTrigs ts).deferred = s.deferred := rfl
@[simp] theorem State.setTrigs_outbox (s : State) (ts : List Trigger) : (s.setTrigs ts).outbox = s.outbox := rfl
@[simp] theorem State.setTrigs_x (s : State) (ts : List Trigger) : (s.setTrigs ts).x = s.x := rfl
@[simp] theorem State.setTrigs_pc (s : State) (ts : List Trigger) : (s.setTrigs ts).pc = s.pc := rfl
@[simp] theorem State.setTrigs_mode (s : State) (ts : List Trigger) : (s.setTrigs ts).mode = s.mode := rfl
@[simp] theorem State.setTrigs_host (s : State) (ts : List Trigger) : (s.setTrigs ts).host = s.host := rfl
@[simp] theorem State.setTrigs_trapM (s : State) (ts : List Trigger) : (s.setTrigs ts).trapM = s.trapM := rfl
@[simp] theorem State.setTrigs_trapS (s : State) (ts : List Trigger) : (s.setTrigs ts).trapS = s.trapS := rfl
@[simp] theorem State.setTrigs_trapVS (s : State) (ts : List Trigger) : (s.setTrigs ts).trapVS = s.trapVS := rfl
@[simp] theorem State.setTrigs_dpc (s : State) (ts : List Trigger) : (s.setTrigs ts).dpc = s.dpc := rfl
@[simp] theorem State.setTrigs_feed (s : State) (ts : List Trigger) : (s.setTrigs ts).feed = s.feed := rfl
@[simp] theorem State.setTrigs_draws (s : State) (ts : List Trigger) : (s.setTrigs ts).draws = s.draws := rfl

/-! ### `setTcontrol` -/

@[simp] theorem State.setTcontrol_cfg (s : State) (a b : Bool) : (s.setTcontrol a b).cfg = s.cfg := rfl
@[simp] theorem State.setTcontrol_tselect (s : State) (a b : Bool) : (s.setTcontrol a b).tselect = s.tselect := rfl
@[simp] theorem State.setTcontrol_trigs (s : State) (a b : Bool) : (s.setTcontrol a b).trigs = s.trigs := rfl
@[simp] theorem State.setTcontrol_mte (s : State) (a b : Bool) : (s.setTcontrol a b).mte = a := rfl
@[simp] theorem State.setTcontrol_mpte (s : State) (a b : Bool) : (s.setTcontrol a b).mpte = b := rfl
@[simp] theorem State.setTcontrol_scontext (s : State) (a b : Bool) : (s.setTcontrol a b).scontext = s.scontext := rfl
@[simp] theorem State.setTcontrol_mcontext (s : State) (a b : Bool) : (s.setTcontrol a b).mcontext = s.mcontext := rfl
@[simp] theorem State.setTcontrol_waiting (s : State) (a b : Bool) : (s.setTcontrol a b).waiting = s.waiting := rfl
@[simp] theorem State.setTcontrol_matched (s : State) (a b : Bool) : (s.setTcontrol a b).matched = s.matched := rfl
@[simp] theorem State.setTcontrol_dueAfter (s : State) (a b : Bool) : (s.setTcontrol a b).dueAfter = s.dueAfter := rfl
@[simp] theorem State.setTcontrol_deferred (s : State) (a b : Bool) : (s.setTcontrol a b).deferred = s.deferred := rfl
@[simp] theorem State.setTcontrol_outbox (s : State) (a b : Bool) : (s.setTcontrol a b).outbox = s.outbox := rfl
@[simp] theorem State.setTcontrol_x (s : State) (a b : Bool) : (s.setTcontrol a b).x = s.x := rfl
@[simp] theorem State.setTcontrol_pc (s : State) (a b : Bool) : (s.setTcontrol a b).pc = s.pc := rfl
@[simp] theorem State.setTcontrol_mode (s : State) (a b : Bool) : (s.setTcontrol a b).mode = s.mode := rfl
@[simp] theorem State.setTcontrol_host (s : State) (a b : Bool) : (s.setTcontrol a b).host = s.host := rfl
@[simp] theorem State.setTcontrol_trapM (s : State) (a b : Bool) : (s.setTcontrol a b).trapM = s.trapM := rfl
@[simp] theorem State.setTcontrol_trapS (s : State) (a b : Bool) : (s.setTcontrol a b).trapS = s.trapS := rfl
@[simp] theorem State.setTcontrol_trapVS (s : State) (a b : Bool) : (s.setTcontrol a b).trapVS = s.trapVS := rfl
@[simp] theorem State.setTcontrol_dpc (s : State) (a b : Bool) : (s.setTcontrol a b).dpc = s.dpc := rfl
@[simp] theorem State.setTcontrol_feed (s : State) (a b : Bool) : (s.setTcontrol a b).feed = s.feed := rfl
@[simp] theorem State.setTcontrol_draws (s : State) (a b : Bool) : (s.setTcontrol a b).draws = s.draws := rfl

/-! ### `setScontext` -/

@[simp] theorem State.setScontext_cfg (s : State) (v : Word) : (s.setScontext v).cfg = s.cfg := rfl
@[simp] theorem State.setScontext_tselect (s : State) (v : Word) : (s.setScontext v).tselect = s.tselect := rfl
@[simp] theorem State.setScontext_trigs (s : State) (v : Word) : (s.setScontext v).trigs = s.trigs := rfl
@[simp] theorem State.setScontext_mte (s : State) (v : Word) : (s.setScontext v).mte = s.mte := rfl
@[simp] theorem State.setScontext_mpte (s : State) (v : Word) : (s.setScontext v).mpte = s.mpte := rfl
@[simp] theorem State.setScontext_scontext (s : State) (v : Word) : (s.setScontext v).scontext = v := rfl
@[simp] theorem State.setScontext_mcontext (s : State) (v : Word) : (s.setScontext v).mcontext = s.mcontext := rfl
@[simp] theorem State.setScontext_waiting (s : State) (v : Word) : (s.setScontext v).waiting = s.waiting := rfl
@[simp] theorem State.setScontext_matched (s : State) (v : Word) : (s.setScontext v).matched = s.matched := rfl
@[simp] theorem State.setScontext_dueAfter (s : State) (v : Word) : (s.setScontext v).dueAfter = s.dueAfter := rfl
@[simp] theorem State.setScontext_deferred (s : State) (v : Word) : (s.setScontext v).deferred = s.deferred := rfl
@[simp] theorem State.setScontext_outbox (s : State) (v : Word) : (s.setScontext v).outbox = s.outbox := rfl
@[simp] theorem State.setScontext_x (s : State) (v : Word) : (s.setScontext v).x = s.x := rfl
@[simp] theorem State.setScontext_pc (s : State) (v : Word) : (s.setScontext v).pc = s.pc := rfl
@[simp] theorem State.setScontext_mode (s : State) (v : Word) : (s.setScontext v).mode = s.mode := rfl
@[simp] theorem State.setScontext_host (s : State) (v : Word) : (s.setScontext v).host = s.host := rfl
@[simp] theorem State.setScontext_trapM (s : State) (v : Word) : (s.setScontext v).trapM = s.trapM := rfl
@[simp] theorem State.setScontext_trapS (s : State) (v : Word) : (s.setScontext v).trapS = s.trapS := rfl
@[simp] theorem State.setScontext_trapVS (s : State) (v : Word) : (s.setScontext v).trapVS = s.trapVS := rfl
@[simp] theorem State.setScontext_dpc (s : State) (v : Word) : (s.setScontext v).dpc = s.dpc := rfl
@[simp] theorem State.setScontext_feed (s : State) (v : Word) : (s.setScontext v).feed = s.feed := rfl
@[simp] theorem State.setScontext_draws (s : State) (v : Word) : (s.setScontext v).draws = s.draws := rfl

/-! ### `setMcontext` -/

@[simp] theorem State.setMcontext_cfg (s : State) (v : Word) : (s.setMcontext v).cfg = s.cfg := rfl
@[simp] theorem State.setMcontext_tselect (s : State) (v : Word) : (s.setMcontext v).tselect = s.tselect := rfl
@[simp] theorem State.setMcontext_trigs (s : State) (v : Word) : (s.setMcontext v).trigs = s.trigs := rfl
@[simp] theorem State.setMcontext_mte (s : State) (v : Word) : (s.setMcontext v).mte = s.mte := rfl
@[simp] theorem State.setMcontext_mpte (s : State) (v : Word) : (s.setMcontext v).mpte = s.mpte := rfl
@[simp] theorem State.setMcontext_scontext (s : State) (v : Word) : (s.setMcontext v).scontext = s.scontext := rfl
@[simp] theorem State.setMcontext_mcontext (s : State) (v : Word) : (s.setMcontext v).mcontext = v := rfl
@[simp] theorem State.setMcontext_waiting (s : State) (v : Word) : (s.setMcontext v).waiting = s.waiting := rfl
@[simp] theorem State.setMcontext_matched (s : State) (v : Word) : (s.setMcontext v).matched = s.matched := rfl
@[simp] theorem State.setMcontext_dueAfter (s : State) (v : Word) : (s.setMcontext v).dueAfter = s.dueAfter := rfl
@[simp] theorem State.setMcontext_deferred (s : State) (v : Word) : (s.setMcontext v).deferred = s.deferred := rfl
@[simp] theorem State.setMcontext_outbox (s : State) (v : Word) : (s.setMcontext v).outbox = s.outbox := rfl
@[simp] theorem State.setMcontext_x (s : State) (v : Word) : (s.setMcontext v).x = s.x := rfl
@[simp] theorem State.setMcontext_pc (s : State) (v : Word) : (s.setMcontext v).pc = s.pc := rfl
@[simp] theorem State.setMcontext_mode (s : State) (v : Word) : (s.setMcontext v).mode = s.mode := rfl
@[simp] theorem State.setMcontext_host (s : State) (v : Word) : (s.setMcontext v).host = s.host := rfl
@[simp] theorem State.setMcontext_trapM (s : State) (v : Word) : (s.setMcontext v).trapM = s.trapM := rfl
@[simp] theorem State.setMcontext_trapS (s : State) (v : Word) : (s.setMcontext v).trapS = s.trapS := rfl
@[simp] theorem State.setMcontext_trapVS (s : State) (v : Word) : (s.setMcontext v).trapVS = s.trapVS := rfl
@[simp] theorem State.setMcontext_dpc (s : State) (v : Word) : (s.setMcontext v).dpc = s.dpc := rfl
@[simp] theorem State.setMcontext_feed (s : State) (v : Word) : (s.setMcontext v).feed = s.feed := rfl
@[simp] theorem State.setMcontext_draws (s : State) (v : Word) : (s.setMcontext v).draws = s.draws := rfl

/-! ### `setWaiting` -/

@[simp] theorem State.setWaiting_cfg (s : State) (w : List Due) : (s.setWaiting w).cfg = s.cfg := rfl
@[simp] theorem State.setWaiting_tselect (s : State) (w : List Due) : (s.setWaiting w).tselect = s.tselect := rfl
@[simp] theorem State.setWaiting_trigs (s : State) (w : List Due) : (s.setWaiting w).trigs = s.trigs := rfl
@[simp] theorem State.setWaiting_mte (s : State) (w : List Due) : (s.setWaiting w).mte = s.mte := rfl
@[simp] theorem State.setWaiting_mpte (s : State) (w : List Due) : (s.setWaiting w).mpte = s.mpte := rfl
@[simp] theorem State.setWaiting_scontext (s : State) (w : List Due) : (s.setWaiting w).scontext = s.scontext := rfl
@[simp] theorem State.setWaiting_mcontext (s : State) (w : List Due) : (s.setWaiting w).mcontext = s.mcontext := rfl
@[simp] theorem State.setWaiting_waiting (s : State) (w : List Due) : (s.setWaiting w).waiting = w := rfl
@[simp] theorem State.setWaiting_matched (s : State) (w : List Due) : (s.setWaiting w).matched = s.matched := rfl
@[simp] theorem State.setWaiting_dueAfter (s : State) (w : List Due) : (s.setWaiting w).dueAfter = s.dueAfter := rfl
@[simp] theorem State.setWaiting_deferred (s : State) (w : List Due) : (s.setWaiting w).deferred = s.deferred := rfl
@[simp] theorem State.setWaiting_outbox (s : State) (w : List Due) : (s.setWaiting w).outbox = s.outbox := rfl
@[simp] theorem State.setWaiting_x (s : State) (w : List Due) : (s.setWaiting w).x = s.x := rfl
@[simp] theorem State.setWaiting_pc (s : State) (w : List Due) : (s.setWaiting w).pc = s.pc := rfl
@[simp] theorem State.setWaiting_mode (s : State) (w : List Due) : (s.setWaiting w).mode = s.mode := rfl
@[simp] theorem State.setWaiting_host (s : State) (w : List Due) : (s.setWaiting w).host = s.host := rfl
@[simp] theorem State.setWaiting_trapM (s : State) (w : List Due) : (s.setWaiting w).trapM = s.trapM := rfl
@[simp] theorem State.setWaiting_trapS (s : State) (w : List Due) : (s.setWaiting w).trapS = s.trapS := rfl
@[simp] theorem State.setWaiting_trapVS (s : State) (w : List Due) : (s.setWaiting w).trapVS = s.trapVS := rfl
@[simp] theorem State.setWaiting_dpc (s : State) (w : List Due) : (s.setWaiting w).dpc = s.dpc := rfl
@[simp] theorem State.setWaiting_feed (s : State) (w : List Due) : (s.setWaiting w).feed = s.feed := rfl
@[simp] theorem State.setWaiting_draws (s : State) (w : List Due) : (s.setWaiting w).draws = s.draws := rfl

/-! ### `setInProgress` -/

@[simp] theorem State.setInProgress_cfg (s : State) (ms : List Matched) (ds : List Due) : (s.setInProgress ms ds).cfg = s.cfg := rfl
@[simp] theorem State.setInProgress_tselect (s : State) (ms : List Matched) (ds : List Due) : (s.setInProgress ms ds).tselect = s.tselect := rfl
@[simp] theorem State.setInProgress_trigs (s : State) (ms : List Matched) (ds : List Due) : (s.setInProgress ms ds).trigs = s.trigs := rfl
@[simp] theorem State.setInProgress_mte (s : State) (ms : List Matched) (ds : List Due) : (s.setInProgress ms ds).mte = s.mte := rfl
@[simp] theorem State.setInProgress_mpte (s : State) (ms : List Matched) (ds : List Due) : (s.setInProgress ms ds).mpte = s.mpte := rfl
@[simp] theorem State.setInProgress_scontext (s : State) (ms : List Matched) (ds : List Due) : (s.setInProgress ms ds).scontext = s.scontext := rfl
@[simp] theorem State.setInProgress_mcontext (s : State) (ms : List Matched) (ds : List Due) : (s.setInProgress ms ds).mcontext = s.mcontext := rfl
@[simp] theorem State.setInProgress_waiting (s : State) (ms : List Matched) (ds : List Due) : (s.setInProgress ms ds).waiting = s.waiting := rfl
@[simp] theorem State.setInProgress_matched (s : State) (ms : List Matched) (ds : List Due) : (s.setInProgress ms ds).matched = ms := rfl
@[simp] theorem State.setInProgress_dueAfter (s : State) (ms : List Matched) (ds : List Due) : (s.setInProgress ms ds).dueAfter = ds := rfl
@[simp] theorem State.setInProgress_deferred (s : State) (ms : List Matched) (ds : List Due) : (s.setInProgress ms ds).deferred = s.deferred := rfl
@[simp] theorem State.setInProgress_outbox (s : State) (ms : List Matched) (ds : List Due) : (s.setInProgress ms ds).outbox = s.outbox := rfl
@[simp] theorem State.setInProgress_x (s : State) (ms : List Matched) (ds : List Due) : (s.setInProgress ms ds).x = s.x := rfl
@[simp] theorem State.setInProgress_pc (s : State) (ms : List Matched) (ds : List Due) : (s.setInProgress ms ds).pc = s.pc := rfl
@[simp] theorem State.setInProgress_mode (s : State) (ms : List Matched) (ds : List Due) : (s.setInProgress ms ds).mode = s.mode := rfl
@[simp] theorem State.setInProgress_host (s : State) (ms : List Matched) (ds : List Due) : (s.setInProgress ms ds).host = s.host := rfl
@[simp] theorem State.setInProgress_trapM (s : State) (ms : List Matched) (ds : List Due) : (s.setInProgress ms ds).trapM = s.trapM := rfl
@[simp] theorem State.setInProgress_trapS (s : State) (ms : List Matched) (ds : List Due) : (s.setInProgress ms ds).trapS = s.trapS := rfl
@[simp] theorem State.setInProgress_trapVS (s : State) (ms : List Matched) (ds : List Due) : (s.setInProgress ms ds).trapVS = s.trapVS := rfl
@[simp] theorem State.setInProgress_dpc (s : State) (ms : List Matched) (ds : List Due) : (s.setInProgress ms ds).dpc = s.dpc := rfl
@[simp] theorem State.setInProgress_feed (s : State) (ms : List Matched) (ds : List Due) : (s.setInProgress ms ds).feed = s.feed := rfl
@[simp] theorem State.setInProgress_draws (s : State) (ms : List Matched) (ds : List Due) : (s.setInProgress ms ds).draws = s.draws := rfl

/-! ### `setDeferred` -/

@[simp] theorem State.setDeferred_cfg (s : State) (ds : List Due) : (s.setDeferred ds).cfg = s.cfg := rfl
@[simp] theorem State.setDeferred_tselect (s : State) (ds : List Due) : (s.setDeferred ds).tselect = s.tselect := rfl
@[simp] theorem State.setDeferred_trigs (s : State) (ds : List Due) : (s.setDeferred ds).trigs = s.trigs := rfl
@[simp] theorem State.setDeferred_mte (s : State) (ds : List Due) : (s.setDeferred ds).mte = s.mte := rfl
@[simp] theorem State.setDeferred_mpte (s : State) (ds : List Due) : (s.setDeferred ds).mpte = s.mpte := rfl
@[simp] theorem State.setDeferred_scontext (s : State) (ds : List Due) : (s.setDeferred ds).scontext = s.scontext := rfl
@[simp] theorem State.setDeferred_mcontext (s : State) (ds : List Due) : (s.setDeferred ds).mcontext = s.mcontext := rfl
@[simp] theorem State.setDeferred_waiting (s : State) (ds : List Due) : (s.setDeferred ds).waiting = s.waiting := rfl
@[simp] theorem State.setDeferred_matched (s : State) (ds : List Due) : (s.setDeferred ds).matched = s.matched := rfl
@[simp] theorem State.setDeferred_dueAfter (s : State) (ds : List Due) : (s.setDeferred ds).dueAfter = s.dueAfter := rfl
@[simp] theorem State.setDeferred_deferred (s : State) (ds : List Due) : (s.setDeferred ds).deferred = ds := rfl
@[simp] theorem State.setDeferred_outbox (s : State) (ds : List Due) : (s.setDeferred ds).outbox = s.outbox := rfl
@[simp] theorem State.setDeferred_x (s : State) (ds : List Due) : (s.setDeferred ds).x = s.x := rfl
@[simp] theorem State.setDeferred_pc (s : State) (ds : List Due) : (s.setDeferred ds).pc = s.pc := rfl
@[simp] theorem State.setDeferred_mode (s : State) (ds : List Due) : (s.setDeferred ds).mode = s.mode := rfl
@[simp] theorem State.setDeferred_host (s : State) (ds : List Due) : (s.setDeferred ds).host = s.host := rfl
@[simp] theorem State.setDeferred_trapM (s : State) (ds : List Due) : (s.setDeferred ds).trapM = s.trapM := rfl
@[simp] theorem State.setDeferred_trapS (s : State) (ds : List Due) : (s.setDeferred ds).trapS = s.trapS := rfl
@[simp] theorem State.setDeferred_trapVS (s : State) (ds : List Due) : (s.setDeferred ds).trapVS = s.trapVS := rfl
@[simp] theorem State.setDeferred_dpc (s : State) (ds : List Due) : (s.setDeferred ds).dpc = s.dpc := rfl
@[simp] theorem State.setDeferred_feed (s : State) (ds : List Due) : (s.setDeferred ds).feed = s.feed := rfl
@[simp] theorem State.setDeferred_draws (s : State) (ds : List Due) : (s.setDeferred ds).draws = s.draws := rfl

/-! ### `emit` -/

@[simp] theorem State.emit_cfg (s : State) (o : List Signal) : (s.emit o).cfg = s.cfg := rfl
@[simp] theorem State.emit_tselect (s : State) (o : List Signal) : (s.emit o).tselect = s.tselect := rfl
@[simp] theorem State.emit_trigs (s : State) (o : List Signal) : (s.emit o).trigs = s.trigs := rfl
@[simp] theorem State.emit_mte (s : State) (o : List Signal) : (s.emit o).mte = s.mte := rfl
@[simp] theorem State.emit_mpte (s : State) (o : List Signal) : (s.emit o).mpte = s.mpte := rfl
@[simp] theorem State.emit_scontext (s : State) (o : List Signal) : (s.emit o).scontext = s.scontext := rfl
@[simp] theorem State.emit_mcontext (s : State) (o : List Signal) : (s.emit o).mcontext = s.mcontext := rfl
@[simp] theorem State.emit_waiting (s : State) (o : List Signal) : (s.emit o).waiting = s.waiting := rfl
@[simp] theorem State.emit_matched (s : State) (o : List Signal) : (s.emit o).matched = s.matched := rfl
@[simp] theorem State.emit_dueAfter (s : State) (o : List Signal) : (s.emit o).dueAfter = s.dueAfter := rfl
@[simp] theorem State.emit_deferred (s : State) (o : List Signal) : (s.emit o).deferred = s.deferred := rfl
@[simp] theorem State.emit_outbox (s : State) (o : List Signal) : (s.emit o).outbox = s.outbox ++ o := rfl
@[simp] theorem State.emit_x (s : State) (o : List Signal) : (s.emit o).x = s.x := rfl
@[simp] theorem State.emit_pc (s : State) (o : List Signal) : (s.emit o).pc = s.pc := rfl
@[simp] theorem State.emit_mode (s : State) (o : List Signal) : (s.emit o).mode = s.mode := rfl
@[simp] theorem State.emit_host (s : State) (o : List Signal) : (s.emit o).host = s.host := rfl
@[simp] theorem State.emit_trapM (s : State) (o : List Signal) : (s.emit o).trapM = s.trapM := rfl
@[simp] theorem State.emit_trapS (s : State) (o : List Signal) : (s.emit o).trapS = s.trapS := rfl
@[simp] theorem State.emit_trapVS (s : State) (o : List Signal) : (s.emit o).trapVS = s.trapVS := rfl
@[simp] theorem State.emit_dpc (s : State) (o : List Signal) : (s.emit o).dpc = s.dpc := rfl
@[simp] theorem State.emit_feed (s : State) (o : List Signal) : (s.emit o).feed = s.feed := rfl
@[simp] theorem State.emit_draws (s : State) (o : List Signal) : (s.emit o).draws = s.draws := rfl

/-! ### `setFeed` -/

@[simp] theorem State.setFeed_cfg (s : State) (f : List HostItem) : (s.setFeed f).cfg = s.cfg := rfl
@[simp] theorem State.setFeed_tselect (s : State) (f : List HostItem) : (s.setFeed f).tselect = s.tselect := rfl
@[simp] theorem State.setFeed_trigs (s : State) (f : List HostItem) : (s.setFeed f).trigs = s.trigs := rfl
@[simp] theorem State.setFeed_mte (s : State) (f : List HostItem) : (s.setFeed f).mte = s.mte := rfl
@[simp] theorem State.setFeed_mpte (s : State) (f : List HostItem) : (s.setFeed f).mpte = s.mpte := rfl
@[simp] theorem State.setFeed_scontext (s : State) (f : List HostItem) : (s.setFeed f).scontext = s.scontext := rfl
@[simp] theorem State.setFeed_mcontext (s : State) (f : List HostItem) : (s.setFeed f).mcontext = s.mcontext := rfl
@[simp] theorem State.setFeed_waiting (s : State) (f : List HostItem) : (s.setFeed f).waiting = s.waiting := rfl
@[simp] theorem State.setFeed_matched (s : State) (f : List HostItem) : (s.setFeed f).matched = s.matched := rfl
@[simp] theorem State.setFeed_dueAfter (s : State) (f : List HostItem) : (s.setFeed f).dueAfter = s.dueAfter := rfl
@[simp] theorem State.setFeed_deferred (s : State) (f : List HostItem) : (s.setFeed f).deferred = s.deferred := rfl
@[simp] theorem State.setFeed_outbox (s : State) (f : List HostItem) : (s.setFeed f).outbox = s.outbox := rfl
@[simp] theorem State.setFeed_x (s : State) (f : List HostItem) : (s.setFeed f).x = s.x := rfl
@[simp] theorem State.setFeed_pc (s : State) (f : List HostItem) : (s.setFeed f).pc = s.pc := rfl
@[simp] theorem State.setFeed_mode (s : State) (f : List HostItem) : (s.setFeed f).mode = s.mode := rfl
@[simp] theorem State.setFeed_host (s : State) (f : List HostItem) : (s.setFeed f).host = s.host := rfl
@[simp] theorem State.setFeed_trapM (s : State) (f : List HostItem) : (s.setFeed f).trapM = s.trapM := rfl
@[simp] theorem State.setFeed_trapS (s : State) (f : List HostItem) : (s.setFeed f).trapS = s.trapS := rfl
@[simp] theorem State.setFeed_trapVS (s : State) (f : List HostItem) : (s.setFeed f).trapVS = s.trapVS := rfl
@[simp] theorem State.setFeed_dpc (s : State) (f : List HostItem) : (s.setFeed f).dpc = s.dpc := rfl
@[simp] theorem State.setFeed_feed (s : State) (f : List HostItem) : (s.setFeed f).feed = f := rfl
@[simp] theorem State.setFeed_draws (s : State) (f : List HostItem) : (s.setFeed f).draws = s.draws := rfl

/-! ### `setTrapRegs` -/

@[simp] theorem State.setTrapRegs_cfg (s : State) (h : Handler) (r : TrapRegs) : (s.setTrapRegs h r).cfg = s.cfg := by
  cases h <;> rfl
@[simp] theorem State.setTrapRegs_tselect (s : State) (h : Handler) (r : TrapRegs) : (s.setTrapRegs h r).tselect = s.tselect := by
  cases h <;> rfl
@[simp] theorem State.setTrapRegs_trigs (s : State) (h : Handler) (r : TrapRegs) : (s.setTrapRegs h r).trigs = s.trigs := by
  cases h <;> rfl
@[simp] theorem State.setTrapRegs_mte (s : State) (h : Handler) (r : TrapRegs) : (s.setTrapRegs h r).mte = s.mte := by
  cases h <;> rfl
@[simp] theorem State.setTrapRegs_mpte (s : State) (h : Handler) (r : TrapRegs) : (s.setTrapRegs h r).mpte = s.mpte := by
  cases h <;> rfl
@[simp] theorem State.setTrapRegs_scontext (s : State) (h : Handler) (r : TrapRegs) : (s.setTrapRegs h r).scontext = s.scontext := by
  cases h <;> rfl
@[simp] theorem State.setTrapRegs_mcontext (s : State) (h : Handler) (r : TrapRegs) : (s.setTrapRegs h r).mcontext = s.mcontext := by
  cases h <;> rfl
@[simp] theorem State.setTrapRegs_waiting (s : State) (h : Handler) (r : TrapRegs) : (s.setTrapRegs h r).waiting = s.waiting := by
  cases h <;> rfl
@[simp] theorem State.setTrapRegs_matched (s : State) (h : Handler) (r : TrapRegs) : (s.setTrapRegs h r).matched = s.matched := by
  cases h <;> rfl
@[simp] theorem State.setTrapRegs_dueAfter (s : State) (h : Handler) (r : TrapRegs) : (s.setTrapRegs h r).dueAfter = s.dueAfter := by
  cases h <;> rfl
@[simp] theorem State.setTrapRegs_deferred (s : State) (h : Handler) (r : TrapRegs) : (s.setTrapRegs h r).deferred = s.deferred := by
  cases h <;> rfl
@[simp] theorem State.setTrapRegs_outbox (s : State) (h : Handler) (r : TrapRegs) : (s.setTrapRegs h r).outbox = s.outbox := by
  cases h <;> rfl
@[simp] theorem State.setTrapRegs_x (s : State) (h : Handler) (r : TrapRegs) : (s.setTrapRegs h r).x = s.x := by
  cases h <;> rfl
@[simp] theorem State.setTrapRegs_pc (s : State) (h : Handler) (r : TrapRegs) : (s.setTrapRegs h r).pc = s.pc := by
  cases h <;> rfl
@[simp] theorem State.setTrapRegs_mode (s : State) (h : Handler) (r : TrapRegs) : (s.setTrapRegs h r).mode = s.mode := by
  cases h <;> rfl
@[simp] theorem State.setTrapRegs_host (s : State) (h : Handler) (r : TrapRegs) : (s.setTrapRegs h r).host = s.host := by
  cases h <;> rfl
@[simp] theorem State.setTrapRegs_dpc (s : State) (h : Handler) (r : TrapRegs) : (s.setTrapRegs h r).dpc = s.dpc := by
  cases h <;> rfl
@[simp] theorem State.setTrapRegs_feed (s : State) (h : Handler) (r : TrapRegs) : (s.setTrapRegs h r).feed = s.feed := by
  cases h <;> rfl
@[simp] theorem State.setTrapRegs_draws (s : State) (h : Handler) (r : TrapRegs) : (s.setTrapRegs h r).draws = s.draws := by
  cases h <;> rfl
@[simp] theorem State.trapRegs_setTrapRegs (s : State) (h : Handler) (r : TrapRegs) :
    (s.setTrapRegs h r).trapRegs h = r := by
  cases h <;> rfl
theorem State.trapRegs_setTrapRegs_ne (s : State) (h k : Handler) (r : TrapRegs) (ne : k ≠ h) :
    (s.setTrapRegs h r).trapRegs k = s.trapRegs k := by
  cases h <;> cases k <;> first | rfl | exact absurd rfl ne

/-! ### `xlen` and `trapRegs` -/

/-- What the effective XLEN of a mode depends on. -/
theorem State.xlenIn_eq {s t : State} (c : t.cfg = s.cfg) (h : t.host.xlens = s.host.xlens) (md : Mode) :
    t.xlenIn md = s.xlenIn md := by
  simp [State.xlenIn, c, h]

/-- XLEN is at most DXLEN (spec/00_scope.md R8). -/
theorem State.xlenIn_bits_le (s : State) (md : Mode) : (s.xlenIn md).bits ≤ s.cfg.dxlen.bits := by
  have le (x : Xlen) : x.bits ≤ Xlen.x64.bits := by cases x <;> decide
  unfold State.xlenIn
  cases s.cfg.dxlen
  · exact Nat.le_refl _
  · exact le _

@[simp] theorem State.tick_xlen (s : State) : (s.tick).xlen = s.xlen := rfl
@[simp] theorem State.tick_trapRegs (s : State) (k : Handler) : (s.tick).trapRegs k = s.trapRegs k := by
  cases k <;> rfl
@[simp] theorem State.setPc_xlen (s : State) (v : Word) : (s.setPc v).xlen = s.xlen := rfl
@[simp] theorem State.setPc_trapRegs (s : State) (v : Word) (k : Handler) : (s.setPc v).trapRegs k = s.trapRegs k := by
  cases k <;> rfl
@[simp] theorem State.setMode_xlen (s : State) (md : Mode) : (s.setMode md).xlen = s.xlenIn md := rfl
@[simp] theorem State.setMode_trapRegs (s : State) (md : Mode) (k : Handler) : (s.setMode md).trapRegs k = s.trapRegs k := by
  cases k <;> rfl
@[simp] theorem State.setHost_trapRegs (s : State) (h : HostCsrs) (k : Handler) : (s.setHost h).trapRegs k = s.trapRegs k := by
  cases k <;> rfl
@[simp] theorem State.setRegs_xlen (s : State) (r : Vector Word 32) : (s.setRegs r).xlen = s.xlen := rfl
@[simp] theorem State.setRegs_trapRegs (s : State) (r : Vector Word 32) (k : Handler) : (s.setRegs r).trapRegs k = s.trapRegs k := by
  cases k <;> rfl
@[simp] theorem State.setDpc_xlen (s : State) (v : Word) : (s.setDpc v).xlen = s.xlen := rfl
@[simp] theorem State.setDpc_trapRegs (s : State) (v : Word) (k : Handler) : (s.setDpc v).trapRegs k = s.trapRegs k := by
  cases k <;> rfl
@[simp] theorem State.setSelect_xlen (s : State) (v : Word) : (s.setSelect v).xlen = s.xlen := rfl
@[simp] theorem State.setSelect_trapRegs (s : State) (v : Word) (k : Handler) : (s.setSelect v).trapRegs k = s.trapRegs k := by
  cases k <;> rfl
@[simp] theorem State.setDeferred_xlen (s : State) (ds : List Due) : (s.setDeferred ds).xlen = s.xlen := rfl
@[simp] theorem State.setDeferred_trapRegs (s : State) (ds : List Due) (k : Handler) : (s.setDeferred ds).trapRegs k = s.trapRegs k := by
  cases k <;> rfl
@[simp] theorem State.setTrigs_xlen (s : State) (ts : List Trigger) : (s.setTrigs ts).xlen = s.xlen := rfl
@[simp] theorem State.setTrigs_trapRegs (s : State) (ts : List Trigger) (k : Handler) : (s.setTrigs ts).trapRegs k = s.trapRegs k := by
  cases k <;> rfl
@[simp] theorem State.setTcontrol_xlen (s : State) (a b : Bool) : (s.setTcontrol a b).xlen = s.xlen := rfl
@[simp] theorem State.setTcontrol_trapRegs (s : State) (a b : Bool) (k : Handler) : (s.setTcontrol a b).trapRegs k = s.trapRegs k := by
  cases k <;> rfl
@[simp] theorem State.setScontext_xlen (s : State) (v : Word) : (s.setScontext v).xlen = s.xlen := rfl
@[simp] theorem State.setScontext_trapRegs (s : State) (v : Word) (k : Handler) : (s.setScontext v).trapRegs k = s.trapRegs k := by
  cases k <;> rfl
@[simp] theorem State.setMcontext_xlen (s : State) (v : Word) : (s.setMcontext v).xlen = s.xlen := rfl
@[simp] theorem State.setMcontext_trapRegs (s : State) (v : Word) (k : Handler) : (s.setMcontext v).trapRegs k = s.trapRegs k := by
  cases k <;> rfl
@[simp] theorem State.setWaiting_xlen (s : State) (w : List Due) : (s.setWaiting w).xlen = s.xlen := rfl
@[simp] theorem State.setWaiting_trapRegs (s : State) (w : List Due) (k : Handler) : (s.setWaiting w).trapRegs k = s.trapRegs k := by
  cases k <;> rfl
@[simp] theorem State.setInProgress_xlen (s : State) (ms : List Matched) (ds : List Due) : (s.setInProgress ms ds).xlen = s.xlen := rfl
@[simp] theorem State.setInProgress_trapRegs (s : State) (ms : List Matched) (ds : List Due) (k : Handler) : (s.setInProgress ms ds).trapRegs k = s.trapRegs k := by
  cases k <;> rfl
@[simp] theorem State.emit_xlen (s : State) (o : List Signal) : (s.emit o).xlen = s.xlen := rfl
@[simp] theorem State.emit_trapRegs (s : State) (o : List Signal) (k : Handler) : (s.emit o).trapRegs k = s.trapRegs k := by
  cases k <;> rfl
@[simp] theorem State.setFeed_xlen (s : State) (f : List HostItem) : (s.setFeed f).xlen = s.xlen := rfl
@[simp] theorem State.setFeed_trapRegs (s : State) (f : List HostItem) (k : Handler) : (s.setFeed f).trapRegs k = s.trapRegs k := by
  cases k <;> rfl
@[simp] theorem State.setTrapRegs_xlen (s : State) (h : Handler) (r : TrapRegs) : (s.setTrapRegs h r).xlen = s.xlen := by
  cases h <;> rfl

/-! ### `modifyTrig` -/

@[simp] theorem State.modifyTrig_cfg (s : State) (i : Nat) (g : Trigger → Trigger) : (s.modifyTrig i g).cfg = s.cfg := rfl
@[simp] theorem State.modifyTrig_tselect (s : State) (i : Nat) (g : Trigger → Trigger) : (s.modifyTrig i g).tselect = s.tselect := rfl
@[simp] theorem State.modifyTrig_mte (s : State) (i : Nat) (g : Trigger → Trigger) : (s.modifyTrig i g).mte = s.mte := rfl
@[simp] theorem State.modifyTrig_mpte (s : State) (i : Nat) (g : Trigger → Trigger) : (s.modifyTrig i g).mpte = s.mpte := rfl
@[simp] theorem State.modifyTrig_scontext (s : State) (i : Nat) (g : Trigger → Trigger) : (s.modifyTrig i g).scontext = s.scontext := rfl
@[simp] theorem State.modifyTrig_mcontext (s : State) (i : Nat) (g : Trigger → Trigger) : (s.modifyTrig i g).mcontext = s.mcontext := rfl
@[simp] theorem State.modifyTrig_waiting (s : State) (i : Nat) (g : Trigger → Trigger) : (s.modifyTrig i g).waiting = s.waiting := rfl
@[simp] theorem State.modifyTrig_matched (s : State) (i : Nat) (g : Trigger → Trigger) : (s.modifyTrig i g).matched = s.matched := rfl
@[simp] theorem State.modifyTrig_dueAfter (s : State) (i : Nat) (g : Trigger → Trigger) : (s.modifyTrig i g).dueAfter = s.dueAfter := rfl
@[simp] theorem State.modifyTrig_deferred (s : State) (i : Nat) (g : Trigger → Trigger) : (s.modifyTrig i g).deferred = s.deferred := rfl
@[simp] theorem State.modifyTrig_outbox (s : State) (i : Nat) (g : Trigger → Trigger) : (s.modifyTrig i g).outbox = s.outbox := rfl
@[simp] theorem State.modifyTrig_x (s : State) (i : Nat) (g : Trigger → Trigger) : (s.modifyTrig i g).x = s.x := rfl
@[simp] theorem State.modifyTrig_pc (s : State) (i : Nat) (g : Trigger → Trigger) : (s.modifyTrig i g).pc = s.pc := rfl
@[simp] theorem State.modifyTrig_mode (s : State) (i : Nat) (g : Trigger → Trigger) : (s.modifyTrig i g).mode = s.mode := rfl
@[simp] theorem State.modifyTrig_host (s : State) (i : Nat) (g : Trigger → Trigger) : (s.modifyTrig i g).host = s.host := rfl
@[simp] theorem State.modifyTrig_trapM (s : State) (i : Nat) (g : Trigger → Trigger) : (s.modifyTrig i g).trapM = s.trapM := rfl
@[simp] theorem State.modifyTrig_trapS (s : State) (i : Nat) (g : Trigger → Trigger) : (s.modifyTrig i g).trapS = s.trapS := rfl
@[simp] theorem State.modifyTrig_trapVS (s : State) (i : Nat) (g : Trigger → Trigger) : (s.modifyTrig i g).trapVS = s.trapVS := rfl
@[simp] theorem State.modifyTrig_dpc (s : State) (i : Nat) (g : Trigger → Trigger) : (s.modifyTrig i g).dpc = s.dpc := rfl
@[simp] theorem State.modifyTrig_feed (s : State) (i : Nat) (g : Trigger → Trigger) : (s.modifyTrig i g).feed = s.feed := rfl
@[simp] theorem State.modifyTrig_draws (s : State) (i : Nat) (g : Trigger → Trigger) : (s.modifyTrig i g).draws = s.draws := rfl
@[simp] theorem State.modifyTrig_xlen (s : State) (i : Nat) (g : Trigger → Trigger) : (s.modifyTrig i g).xlen = s.xlen := rfl
@[simp] theorem State.modifyTrig_trapRegs (s : State) (i : Nat) (g : Trigger → Trigger) (k : Handler) :
    (s.modifyTrig i g).trapRegs k = s.trapRegs k := by
  cases k <;> rfl
@[simp] theorem State.modifyTrig_length (s : State) (i : Nat) (g : Trigger → Trigger) :
    (s.modifyTrig i g).trigs.length = s.trigs.length := by
  simp [State.modifyTrig]

/-- What `modifyTrig` does to each trigger. -/
theorem State.modifyTrig_get (s : State) (i j : Nat) (g : Trigger → Trigger) :
    (s.modifyTrig i g).trigs[j]? = (s.trigs[j]?).map fun t => if j = i then g t else t := by
  simp [State.modifyTrig, List.getElem?_mapIdx]

/-! ### `endItem` -/

@[simp] theorem State.endItem_cfg (s : State) : s.endItem.cfg = s.cfg := rfl
@[simp] theorem State.endItem_tselect (s : State) : s.endItem.tselect = s.tselect := rfl
@[simp] theorem State.endItem_trigs (s : State) : s.endItem.trigs = s.trigs := rfl
@[simp] theorem State.endItem_mte (s : State) : s.endItem.mte = s.mte := rfl
@[simp] theorem State.endItem_mpte (s : State) : s.endItem.mpte = s.mpte := rfl
@[simp] theorem State.endItem_scontext (s : State) : s.endItem.scontext = s.scontext := rfl
@[simp] theorem State.endItem_mcontext (s : State) : s.endItem.mcontext = s.mcontext := rfl
@[simp] theorem State.endItem_waiting (s : State) : s.endItem.waiting = s.waiting := rfl
@[simp] theorem State.endItem_matched (s : State) : s.endItem.matched = s.matched := rfl
@[simp] theorem State.endItem_dueAfter (s : State) : s.endItem.dueAfter = s.dueAfter := rfl
@[simp] theorem State.endItem_deferred (s : State) : s.endItem.deferred = s.deferred := rfl
@[simp] theorem State.endItem_outbox (s : State) : s.endItem.outbox = s.outbox := rfl
@[simp] theorem State.endItem_x (s : State) : s.endItem.x = s.x := rfl
@[simp] theorem State.endItem_pc (s : State) : s.endItem.pc = s.pc := rfl
@[simp] theorem State.endItem_mode (s : State) : s.endItem.mode = s.mode := rfl
@[simp] theorem State.endItem_host (s : State) : s.endItem.host = s.host := rfl
@[simp] theorem State.endItem_trapM (s : State) : s.endItem.trapM = s.trapM := rfl
@[simp] theorem State.endItem_trapS (s : State) : s.endItem.trapS = s.trapS := rfl
@[simp] theorem State.endItem_trapVS (s : State) : s.endItem.trapVS = s.trapVS := rfl
@[simp] theorem State.endItem_dpc (s : State) : s.endItem.dpc = s.dpc := rfl
@[simp] theorem State.endItem_feed (s : State) : s.endItem.feed = s.feed.tail := rfl
@[simp] theorem State.endItem_draws (s : State) : s.endItem.draws = s.draws := rfl
@[simp] theorem State.endItem_xlen (s : State) : s.endItem.xlen = s.xlen := rfl
@[simp] theorem State.endItem_trapRegs (s : State) (k : Handler) : s.endItem.trapRegs k = s.trapRegs k := by
  cases k <;> rfl

end Sys2Proof.Machine
end

