-- ==== Sys2Proof/Laws/Ops.lean ====
section
/-! SUPPORT. What the shared operations of Machine/Operands.lean, Machine/Ops.lean and Machine/Fire.lean do, said once each:
the fields an operation leaves alone, and a lemma with everything it changes. -/

namespace Sys2Proof.Machine

/-! ### Registers -/

@[simp] theorem State.writeReg_cfg (s : State) (r : Reg) (v : Word) : (s.writeReg r v).cfg = s.cfg := by
  unfold State.writeReg; split <;> rfl
@[simp] theorem State.writeReg_tselect (s : State) (r : Reg) (v : Word) : (s.writeReg r v).tselect = s.tselect := by
  unfold State.writeReg; split <;> rfl
@[simp] theorem State.writeReg_trigs (s : State) (r : Reg) (v : Word) : (s.writeReg r v).trigs = s.trigs := by
  unfold State.writeReg; split <;> rfl
@[simp] theorem State.writeReg_mte (s : State) (r : Reg) (v : Word) : (s.writeReg r v).mte = s.mte := by
  unfold State.writeReg; split <;> rfl
@[simp] theorem State.writeReg_mpte (s : State) (r : Reg) (v : Word) : (s.writeReg r v).mpte = s.mpte := by
  unfold State.writeReg; split <;> rfl
@[simp] theorem State.writeReg_scontext (s : State) (r : Reg) (v : Word) : (s.writeReg r v).scontext = s.scontext := by
  unfold State.writeReg; split <;> rfl
@[simp] theorem State.writeReg_mcontext (s : State) (r : Reg) (v : Word) : (s.writeReg r v).mcontext = s.mcontext := by
  unfold State.writeReg; split <;> rfl
@[simp] theorem State.writeReg_waiting (s : State) (r : Reg) (v : Word) : (s.writeReg r v).waiting = s.waiting := by
  unfold State.writeReg; split <;> rfl
@[simp] theorem State.writeReg_matched (s : State) (r : Reg) (v : Word) : (s.writeReg r v).matched = s.matched := by
  unfold State.writeReg; split <;> rfl
@[simp] theorem State.writeReg_dueAfter (s : State) (r : Reg) (v : Word) : (s.writeReg r v).dueAfter = s.dueAfter := by
  unfold State.writeReg; split <;> rfl
@[simp] theorem State.writeReg_deferred (s : State) (r : Reg) (v : Word) : (s.writeReg r v).deferred = s.deferred := by
  unfold State.writeReg; split <;> rfl
@[simp] theorem State.writeReg_outbox (s : State) (r : Reg) (v : Word) : (s.writeReg r v).outbox = s.outbox := by
  unfold State.writeReg; split <;> rfl
@[simp] theorem State.writeReg_pc (s : State) (r : Reg) (v : Word) : (s.writeReg r v).pc = s.pc := by
  unfold State.writeReg; split <;> rfl
@[simp] theorem State.writeReg_mode (s : State) (r : Reg) (v : Word) : (s.writeReg r v).mode = s.mode := by
  unfold State.writeReg; split <;> rfl
@[simp] theorem State.writeReg_host (s : State) (r : Reg) (v : Word) : (s.writeReg r v).host = s.host := by
  unfold State.writeReg; split <;> rfl
@[simp] theorem State.writeReg_trapM (s : State) (r : Reg) (v : Word) : (s.writeReg r v).trapM = s.trapM := by
  unfold State.writeReg; split <;> rfl
@[simp] theorem State.writeReg_trapS (s : State) (r : Reg) (v : Word) : (s.writeReg r v).trapS = s.trapS := by
  unfold State.writeReg; split <;> rfl
@[simp] theorem State.writeReg_trapVS (s : State) (r : Reg) (v : Word) : (s.writeReg r v).trapVS = s.trapVS := by
  unfold State.writeReg; split <;> rfl
@[simp] theorem State.writeReg_dpc (s : State) (r : Reg) (v : Word) : (s.writeReg r v).dpc = s.dpc := by
  unfold State.writeReg; split <;> rfl
@[simp] theorem State.writeReg_feed (s : State) (r : Reg) (v : Word) : (s.writeReg r v).feed = s.feed := by
  unfold State.writeReg; split <;> rfl
@[simp] theorem State.writeReg_draws (s : State) (r : Reg) (v : Word) : (s.writeReg r v).draws = s.draws := by
  unfold State.writeReg; split <;> rfl

@[simp] theorem State.writeReg_xlen (s : State) (r : Reg) (v : Word) : (s.writeReg r v).xlen = s.xlen := by
  unfold State.writeReg; split <;> rfl

@[simp] theorem State.writeReg_trapRegs (s : State) (r : Reg) (v : Word) (k : Handler) :
    (s.writeReg r v).trapRegs k = s.trapRegs k := by
  unfold State.writeReg; split <;> cases k <;> rfl

@[simp] theorem Xlen.trunc_trunc (x : Xlen) (v : Word) : x.trunc (x.trunc v) = x.trunc v := by
  cases x
  · apply BitVec.eq_of_getLsbD_eq
    intro i h
    simp only [Xlen.trunc, BitVec.getLsbD_setWidth, BitVec.getLsbD_extractLsb']
    by_cases hi : i < 32 <;> simp [hi]
  · rfl

/-- A register after a write to a register: x0 discards it and reads 0. -/
theorem State.readReg_writeReg (s : State) (r q : Reg) (v : Word) :
    (s.writeReg r v).readReg q = if q = r ∧ q ≠ 0 then s.xlen.trunc v else s.readReg q := by
  unfold State.readReg
  by_cases hq : q = 0
  · simp [hq]
  · by_cases hr : r = 0
    · subst hr
      simp [State.writeReg]
    · simp only [hq, if_false, State.writeReg_xlen, ne_eq, not_false_eq_true, and_true]
      simp only [State.writeReg, hr, if_false, State.setRegs_x]
      by_cases h : q = r
      · subst h
        simp
      · have hn : r.toNat ≠ q.toNat := fun e => h (BitVec.eq_of_toNat_eq e.symm)
        simp [h, hn]

@[simp] theorem State.writeRegs_cfg (s : State) (ws : List (Reg × Word)) : (s.writeRegs ws).cfg = s.cfg := by
  unfold State.writeRegs
  induction ws generalizing s with
  | nil => rfl
  | cons w ws ih => simp [List.foldl_cons, ih]
@[simp] theorem State.writeRegs_tselect (s : State) (ws : List (Reg × Word)) : (s.writeRegs ws).tselect = s.tselect := by
  unfold State.writeRegs
  induction ws generalizing s with
  | nil => rfl
  | cons w ws ih => simp [List.foldl_cons, ih]
@[simp] theorem State.writeRegs_trigs (s : State) (ws : List (Reg × Word)) : (s.writeRegs ws).trigs = s.trigs := by
  unfold State.writeRegs
  induction ws generalizing s with
  | nil => rfl
  | cons w ws ih => simp [List.foldl_cons, ih]
@[simp] theorem State.writeRegs_mte (s : State) (ws : List (Reg × Word)) : (s.writeRegs ws).mte = s.mte := by
  unfold State.writeRegs
  induction ws generalizing s with
  | nil => rfl
  | cons w ws ih => simp [List.foldl_cons, ih]
@[simp] theorem State.writeRegs_mpte (s : State) (ws : List (Reg × Word)) : (s.writeRegs ws).mpte = s.mpte := by
  unfold State.writeRegs
  induction ws generalizing s with
  | nil => rfl
  | cons w ws ih => simp [List.foldl_cons, ih]
@[simp] theorem State.writeRegs_scontext (s : State) (ws : List (Reg × Word)) : (s.writeRegs ws).scontext = s.scontext := by
  unfold State.writeRegs
  induction ws generalizing s with
  | nil => rfl
  | cons w ws ih => simp [List.foldl_cons, ih]
@[simp] theorem State.writeRegs_mcontext (s : State) (ws : List (Reg × Word)) : (s.writeRegs ws).mcontext = s.mcontext := by
  unfold State.writeRegs
  induction ws generalizing s with
  | nil => rfl
  | cons w ws ih => simp [List.foldl_cons, ih]
@[simp] theorem State.writeRegs_waiting (s : State) (ws : List (Reg × Word)) : (s.writeRegs ws).waiting = s.waiting := by
  unfold State.writeRegs
  induction ws generalizing s with
  | nil => rfl
  | cons w ws ih => simp [List.foldl_cons, ih]
@[simp] theorem State.writeRegs_matched (s : State) (ws : List (Reg × Word)) : (s.writeRegs ws).matched = s.matched := by
  unfold State.writeRegs
  induction ws generalizing s with
  | nil => rfl
  | cons w ws ih => simp [List.foldl_cons, ih]
@[simp] theorem State.writeRegs_dueAfter (s : State) (ws : List (Reg × Word)) : (s.writeRegs ws).dueAfter = s.dueAfter := by
  unfold State.writeRegs
  induction ws generalizing s with
  | nil => rfl
  | cons w ws ih => simp [List.foldl_cons, ih]
@[simp] theorem State.writeRegs_deferred (s : State) (ws : List (Reg × Word)) : (s.writeRegs ws).deferred = s.deferred := by
  unfold State.writeRegs
  induction ws generalizing s with
  | nil => rfl
  | cons w ws ih => simp [List.foldl_cons, ih]
@[simp] theorem State.writeRegs_outbox (s : State) (ws : List (Reg × Word)) : (s.writeRegs ws).outbox = s.outbox := by
  unfold State.writeRegs
  induction ws generalizing s with
  | nil => rfl
  | cons w ws ih => simp [List.foldl_cons, ih]
@[simp] theorem State.writeRegs_pc (s : State) (ws : List (Reg × Word)) : (s.writeRegs ws).pc = s.pc := by
  unfold State.writeRegs
  induction ws generalizing s with
  | nil => rfl
  | cons w ws ih => simp [List.foldl_cons, ih]
@[simp] theorem State.writeRegs_mode (s : State) (ws : List (Reg × Word)) : (s.writeRegs ws).mode = s.mode := by
  unfold State.writeRegs
  induction ws generalizing s with
  | nil => rfl
  | cons w ws ih => simp [List.foldl_cons, ih]
@[simp] theorem State.writeRegs_host (s : State) (ws : List (Reg × Word)) : (s.writeRegs ws).host = s.host := by
  unfold State.writeRegs
  induction ws generalizing s with
  | nil => rfl
  | cons w ws ih => simp [List.foldl_cons, ih]
@[simp] theorem State.writeRegs_trapM (s : State) (ws : List (Reg × Word)) : (s.writeRegs ws).trapM = s.trapM := by
  unfold State.writeRegs
  induction ws generalizing s with
  | nil => rfl
  | cons w ws ih => simp [List.foldl_cons, ih]
@[simp] theorem State.writeRegs_trapS (s : State) (ws : List (Reg × Word)) : (s.writeRegs ws).trapS = s.trapS := by
  unfold State.writeRegs
  induction ws generalizing s with
  | nil => rfl
  | cons w ws ih => simp [List.foldl_cons, ih]
@[simp] theorem State.writeRegs_trapVS (s : State) (ws : List (Reg × Word)) : (s.writeRegs ws).trapVS = s.trapVS := by
  unfold State.writeRegs
  induction ws generalizing s with
  | nil => rfl
  | cons w ws ih => simp [List.foldl_cons, ih]
@[simp] theorem State.writeRegs_dpc (s : State) (ws : List (Reg × Word)) : (s.writeRegs ws).dpc = s.dpc := by
  unfold State.writeRegs
  induction ws generalizing s with
  | nil => rfl
  | cons w ws ih => simp [List.foldl_cons, ih]
@[simp] theorem State.writeRegs_feed (s : State) (ws : List (Reg × Word)) : (s.writeRegs ws).feed = s.feed := by
  unfold State.writeRegs
  induction ws generalizing s with
  | nil => rfl
  | cons w ws ih => simp [List.foldl_cons, ih]
@[simp] theorem State.writeRegs_draws (s : State) (ws : List (Reg × Word)) : (s.writeRegs ws).draws = s.draws := by
  unfold State.writeRegs
  induction ws generalizing s with
  | nil => rfl
  | cons w ws ih => simp [List.foldl_cons, ih]

@[simp] theorem State.writeRegs_trapRegs (s : State) (ws : List (Reg × Word)) (k : Handler) :
    (s.writeRegs ws).trapRegs k = s.trapRegs k := by
  unfold State.writeRegs
  induction ws generalizing s with
  | nil => rfl
  | cons w ws ih => simp [List.foldl_cons, ih]

/-! ### The end of an instruction -/

@[simp] theorem State.abandon_cfg (s : State) : (s.abandon).cfg = s.cfg := by
  rfl
@[simp] theorem State.abandon_tselect (s : State) : (s.abandon).tselect = s.tselect := by
  rfl
@[simp] theorem State.abandon_trigs (s : State) : (s.abandon).trigs = s.trigs := by
  rfl
@[simp] theorem State.abandon_mte (s : State) : (s.abandon).mte = s.mte := by
  rfl
@[simp] theorem State.abandon_mpte (s : State) : (s.abandon).mpte = s.mpte := by
  rfl
@[simp] theorem State.abandon_scontext (s : State) : (s.abandon).scontext = s.scontext := by
  rfl
@[simp] theorem State.abandon_mcontext (s : State) : (s.abandon).mcontext = s.mcontext := by
  rfl
@[simp] theorem State.abandon_waiting (s : State) : (s.abandon).waiting = s.waiting ++ s.survivors := by
  rfl
@[simp] theorem State.abandon_matched (s : State) : (s.abandon).matched = [] := by
  rfl
@[simp] theorem State.abandon_dueAfter (s : State) : (s.abandon).dueAfter = [] := by
  rfl
@[simp] theorem State.abandon_deferred (s : State) : (s.abandon).deferred = [] := by
  rfl
@[simp] theorem State.abandon_outbox (s : State) : (s.abandon).outbox = s.outbox := by
  rfl
@[simp] theorem State.abandon_x (s : State) : (s.abandon).x = s.x := by
  rfl
@[simp] theorem State.abandon_pc (s : State) : (s.abandon).pc = s.pc := by
  rfl
@[simp] theorem State.abandon_mode (s : State) : (s.abandon).mode = s.mode := by
  rfl
@[simp] theorem State.abandon_host (s : State) : (s.abandon).host = s.host := by
  rfl
@[simp] theorem State.abandon_trapM (s : State) : (s.abandon).trapM = s.trapM := by
  rfl
@[simp] theorem State.abandon_trapS (s : State) : (s.abandon).trapS = s.trapS := by
  rfl
@[simp] theorem State.abandon_trapVS (s : State) : (s.abandon).trapVS = s.trapVS := by
  rfl
@[simp] theorem State.abandon_dpc (s : State) : (s.abandon).dpc = s.dpc := by
  rfl
@[simp] theorem State.abandon_feed (s : State) : (s.abandon).feed = s.feed := by
  rfl
@[simp] theorem State.abandon_draws (s : State) : (s.abandon).draws = s.draws := by
  rfl

@[simp] theorem State.abandon_trapRegs (s : State) (k : Handler) : s.abandon.trapRegs k = s.trapRegs k := by
  cases k <;> rfl

@[simp] theorem State.retire_cfg (was s : State) (w : Option Nat) : (State.retire was s w).cfg = s.cfg := rfl
@[simp] theorem State.retire_tselect (was s : State) (w : Option Nat) : (State.retire was s w).tselect = s.tselect := rfl
@[simp] theorem State.retire_trigs (was s : State) (w : Option Nat) : (State.retire was s w).trigs = State.countedTrigs was was s.trigs was.mode w := rfl
@[simp] theorem State.retire_mte (was s : State) (w : Option Nat) : (State.retire was s w).mte = s.mte := rfl
@[simp] theorem State.retire_mpte (was s : State) (w : Option Nat) : (State.retire was s w).mpte = s.mpte := rfl
@[simp] theorem State.retire_scontext (was s : State) (w : Option Nat) : (State.retire was s w).scontext = s.scontext := rfl
@[simp] theorem State.retire_mcontext (was s : State) (w : Option Nat) : (State.retire was s w).mcontext = s.mcontext := rfl
@[simp] theorem State.retire_waiting (was s : State) (w : Option Nat) : (State.retire was s w).waiting = agedIn was.mode s.waiting ++ s.dueAfter := rfl
@[simp] theorem State.retire_matched (was s : State) (w : Option Nat) : (State.retire was s w).matched = [] := rfl
@[simp] theorem State.retire_dueAfter (was s : State) (w : Option Nat) : (State.retire was s w).dueAfter = [] := rfl
@[simp] theorem State.retire_deferred (was s : State) (w : Option Nat) : (State.retire was s w).deferred = [] := rfl
@[simp] theorem State.retire_outbox (was s : State) (w : Option Nat) : (State.retire was s w).outbox = s.outbox := rfl
@[simp] theorem State.retire_x (was s : State) (w : Option Nat) : (State.retire was s w).x = s.x := rfl
@[simp] theorem State.retire_pc (was s : State) (w : Option Nat) : (State.retire was s w).pc = s.pc := rfl
@[simp] theorem State.retire_mode (was s : State) (w : Option Nat) : (State.retire was s w).mode = s.mode := rfl
@[simp] theorem State.retire_host (was s : State) (w : Option Nat) : (State.retire was s w).host = s.host := rfl
@[simp] theorem State.retire_trapM (was s : State) (w : Option Nat) : (State.retire was s w).trapM = s.trapM := rfl
@[simp] theorem State.retire_trapS (was s : State) (w : Option Nat) : (State.retire was s w).trapS = s.trapS := rfl
@[simp] theorem State.retire_trapVS (was s : State) (w : Option Nat) : (State.retire was s w).trapVS = s.trapVS := rfl
@[simp] theorem State.retire_dpc (was s : State) (w : Option Nat) : (State.retire was s w).dpc = s.dpc := rfl
@[simp] theorem State.retire_feed (was s : State) (w : Option Nat) : (State.retire was s w).feed = s.feed := rfl
@[simp] theorem State.retire_draws (was s : State) (w : Option Nat) : (State.retire was s w).draws = s.draws + 1 := rfl
@[simp] theorem State.retire_trapRegs (was s : State) (w : Option Nat) (k : Handler) :
    (State.retire was s w).trapRegs k = s.trapRegs k := by
  cases k <;> rfl

@[simp] theorem State.retire_xlen (was s : State) (w : Option Nat) : (State.retire was s w).xlen = s.xlen := rfl

@[simp] theorem State.countedTrigs_length (was at_ : State) (now : List Trigger) (md : Mode) (w : Option Nat) :
    (State.countedTrigs was at_ now md w).length = now.length := by
  simp [State.countedTrigs]

/-- What `Retire` or `Trap` does to each trigger: one that was of type 3 and matched is counted, any other is as it was. -/
theorem State.countedTrigs_get (was at_ : State) (now : List Trigger) (md : Mode) (w : Option Nat) (i : Nat) :
    (State.countedTrigs was at_ now md w)[i]? = (now[i]?).map (State.countedAt was at_ md w i) := by
  simp [State.countedTrigs, List.getElem?_mapIdx]

/-! ### Taking a trap -/

@[simp] theorem State.hostTrap_cfg (s : State) (h : Handler) (b : Bool) (c : Nat) (v : Word) : (s.hostTrap h b c v).cfg = s.cfg := by
  simp [State.hostTrap]
@[simp] theorem State.hostTrap_tselect (s : State) (h : Handler) (b : Bool) (c : Nat) (v : Word) : (s.hostTrap h b c v).tselect = s.tselect := by
  simp [State.hostTrap]
@[simp] theorem State.hostTrap_trigs (s : State) (h : Handler) (b : Bool) (c : Nat) (v : Word) : (s.hostTrap h b c v).trigs = s.trigs := by
  simp [State.hostTrap]
@[simp] theorem State.hostTrap_mte (s : State) (h : Handler) (b : Bool) (c : Nat) (v : Word) : (s.hostTrap h b c v).mte = s.mte := by
  simp [State.hostTrap]
@[simp] theorem State.hostTrap_mpte (s : State) (h : Handler) (b : Bool) (c : Nat) (v : Word) : (s.hostTrap h b c v).mpte = s.mpte := by
  simp [State.hostTrap]
@[simp] theorem State.hostTrap_scontext (s : State) (h : Handler) (b : Bool) (c : Nat) (v : Word) : (s.hostTrap h b c v).scontext = s.scontext := by
  simp [State.hostTrap]
@[simp] theorem State.hostTrap_mcontext (s : State) (h : Handler) (b : Bool) (c : Nat) (v : Word) : (s.hostTrap h b c v).mcontext = s.mcontext := by
  simp [State.hostTrap]
@[simp] theorem State.hostTrap_waiting (s : State) (h : Handler) (b : Bool) (c : Nat) (v : Word) : (s.hostTrap h b c v).waiting = s.waiting := by
  simp [State.hostTrap]
@[simp] theorem State.hostTrap_matched (s : State) (h : Handler) (b : Bool) (c : Nat) (v : Word) : (s.hostTrap h b c v).matched = s.matched := by
  simp [State.hostTrap]
@[simp] theorem State.hostTrap_dueAfter (s : State) (h : Handler) (b : Bool) (c : Nat) (v : Word) : (s.hostTrap h b c v).dueAfter = s.dueAfter := by
  simp [State.hostTrap]
@[simp] theorem State.hostTrap_deferred (s : State) (h : Handler) (b : Bool) (c : Nat) (v : Word) : (s.hostTrap h b c v).deferred = s.deferred := by
  simp [State.hostTrap]
@[simp] theorem State.hostTrap_outbox (s : State) (h : Handler) (b : Bool) (c : Nat) (v : Word) : (s.hostTrap h b c v).outbox = s.outbox := by
  simp [State.hostTrap]
@[simp] theorem State.hostTrap_x (s : State) (h : Handler) (b : Bool) (c : Nat) (v : Word) : (s.hostTrap h b c v).x = s.x := by
  simp [State.hostTrap]
@[simp] theorem State.hostTrap_pc (s : State) (h : Handler) (b : Bool) (c : Nat) (v : Word) : (s.hostTrap h b c v).pc = (s.xlenIn h.mode).trunc (Config.freeWord .handler s.draws 0) := by
  simp [State.hostTrap]
@[simp] theorem State.hostTrap_mode (s : State) (h : Handler) (b : Bool) (c : Nat) (v : Word) : (s.hostTrap h b c v).mode = h.mode := by
  simp [State.hostTrap]
@[simp] theorem State.hostTrap_host (s : State) (h : Handler) (b : Bool) (c : Nat) (v : Word) : (s.hostTrap h b c v).host = s.host.masked h := by
  simp [State.hostTrap]
@[simp] theorem State.hostTrap_dpc (s : State) (h : Handler) (b : Bool) (c : Nat) (v : Word) : (s.hostTrap h b c v).dpc = s.dpc := by
  simp [State.hostTrap]
@[simp] theorem State.hostTrap_feed (s : State) (h : Handler) (b : Bool) (c : Nat) (v : Word) : (s.hostTrap h b c v).feed = s.feed := by
  simp [State.hostTrap]
@[simp] theorem State.hostTrap_draws (s : State) (h : Handler) (b : Bool) (c : Nat) (v : Word) : (s.hostTrap h b c v).draws = s.draws := by
  simp [State.hostTrap]

@[simp] theorem State.stackTcontrol_cfg (s : State) (h : Handler) : (s.stackTcontrol h).cfg = s.cfg := by
  unfold State.stackTcontrol; split <;> rfl
@[simp] theorem State.stackTcontrol_tselect (s : State) (h : Handler) : (s.stackTcontrol h).tselect = s.tselect := by
  unfold State.stackTcontrol; split <;> rfl
@[simp] theorem State.stackTcontrol_trigs (s : State) (h : Handler) : (s.stackTcontrol h).trigs = s.trigs := by
  unfold State.stackTcontrol; split <;> rfl
@[simp] theorem State.stackTcontrol_scontext (s : State) (h : Handler) : (s.stackTcontrol h).scontext = s.scontext := by
  unfold State.stackTcontrol; split <;> rfl
@[simp] theorem State.stackTcontrol_mcontext (s : State) (h : Handler) : (s.stackTcontrol h).mcontext = s.mcontext := by
  unfold State.stackTcontrol; split <;> rfl
@[simp] theorem State.stackTcontrol_waiting (s : State) (h : Handler) : (s.stackTcontrol h).waiting = s.waiting := by
  unfold State.stackTcontrol; split <;> rfl
@[simp] theorem State.stackTcontrol_matched (s : State) (h : Handler) : (s.stackTcontrol h).matched = s.matched := by
  unfold State.stackTcontrol; split <;> rfl
@[simp] theorem State.stackTcontrol_dueAfter (s : State) (h : Handler) : (s.stackTcontrol h).dueAfter = s.dueAfter := by
  unfold State.stackTcontrol; split <;> rfl
@[simp] theorem State.stackTcontrol_deferred (s : State) (h : Handler) : (s.stackTcontrol h).deferred = s.deferred := by
  unfold State.stackTcontrol; split <;> rfl
@[simp] theorem State.stackTcontrol_outbox (s : State) (h : Handler) : (s.stackTcontrol h).outbox = s.outbox := by
  unfold State.stackTcontrol; split <;> rfl
@[simp] theorem State.stackTcontrol_x (s : State) (h : Handler) : (s.stackTcontrol h).x = s.x := by
  unfold State.stackTcontrol; split <;> rfl
@[simp] theorem State.stackTcontrol_pc (s : State) (h : Handler) : (s.stackTcontrol h).pc = s.pc := by
  unfold State.stackTcontrol; split <;> rfl
@[simp] theorem State.stackTcontrol_mode (s : State) (h : Handler) : (s.stackTcontrol h).mode = s.mode := by
  unfold State.stackTcontrol; split <;> rfl
@[simp] theorem State.stackTcontrol_host (s : State) (h : Handler) : (s.stackTcontrol h).host = s.host := by
  unfold State.stackTcontrol; split <;> rfl
@[simp] theorem State.stackTcontrol_trapM (s : State) (h : Handler) : (s.stackTcontrol h).trapM = s.trapM := by
  unfold State.stackTcontrol; split <;> rfl
@[simp] theorem State.stackTcontrol_trapS (s : State) (h : Handler) : (s.stackTcontrol h).trapS = s.trapS := by
  unfold State.stackTcontrol; split <;> rfl
@[simp] theorem State.stackTcontrol_trapVS (s : State) (h : Handler) : (s.stackTcontrol h).trapVS = s.trapVS := by
  unfold State.stackTcontrol; split <;> rfl
@[simp] theorem State.stackTcontrol_dpc (s : State) (h : Handler) : (s.stackTcontrol h).dpc = s.dpc := by
  unfold State.stackTcontrol; split <;> rfl
@[simp] theorem State.stackTcontrol_feed (s : State) (h : Handler) : (s.stackTcontrol h).feed = s.feed := by
  unfold State.stackTcontrol; split <;> rfl
@[simp] theorem State.stackTcontrol_draws (s : State) (h : Handler) : (s.stackTcontrol h).draws = s.draws := by
  unfold State.stackTcontrol; split <;> rfl

@[simp] theorem State.trapTriggers_cfg (s : State) (md : Mode) (b n : Bool) (c : Nat) : (s.trapTriggers md b n c).cfg = s.cfg := by
  rfl
@[simp] theorem State.trapTriggers_tselect (s : State) (md : Mode) (b n : Bool) (c : Nat) : (s.trapTriggers md b n c).tselect = s.tselect := by
  rfl
@[simp] theorem State.trapTriggers_mte (s : State) (md : Mode) (b n : Bool) (c : Nat) : (s.trapTriggers md b n c).mte = s.mte := by
  rfl
@[simp] theorem State.trapTriggers_mpte (s : State) (md : Mode) (b n : Bool) (c : Nat) : (s.trapTriggers md b n c).mpte = s.mpte := by
  rfl
@[simp] theorem State.trapTriggers_scontext (s : State) (md : Mode) (b n : Bool) (c : Nat) : (s.trapTriggers md b n c).scontext = s.scontext := by
  rfl
@[simp] theorem State.trapTriggers_mcontext (s : State) (md : Mode) (b n : Bool) (c : Nat) : (s.trapTriggers md b n c).mcontext = s.mcontext := by
  rfl
@[simp] theorem State.trapTriggers_matched (s : State) (md : Mode) (b n : Bool) (c : Nat) : (s.trapTriggers md b n c).matched = s.matched := by
  rfl
@[simp] theorem State.trapTriggers_dueAfter (s : State) (md : Mode) (b n : Bool) (c : Nat) : (s.trapTriggers md b n c).dueAfter = s.dueAfter := by
  rfl
@[simp] theorem State.trapTriggers_deferred (s : State) (md : Mode) (b n : Bool) (c : Nat) : (s.trapTriggers md b n c).deferred = s.deferred := by
  rfl
@[simp] theorem State.trapTriggers_outbox (s : State) (md : Mode) (b n : Bool) (c : Nat) : (s.trapTriggers md b n c).outbox = s.outbox := by
  rfl
@[simp] theorem State.trapTriggers_x (s : State) (md : Mode) (b n : Bool) (c : Nat) : (s.trapTriggers md b n c).x = s.x := by
  rfl
@[simp] theorem State.trapTriggers_pc (s : State) (md : Mode) (b n : Bool) (c : Nat) : (s.trapTriggers md b n c).pc = s.pc := by
  rfl
@[simp] theorem State.trapTriggers_mode (s : State) (md : Mode) (b n : Bool) (c : Nat) : (s.trapTriggers md b n c).mode = s.mode := by
  rfl
@[simp] theorem State.trapTriggers_host (s : State) (md : Mode) (b n : Bool) (c : Nat) : (s.trapTriggers md b n c).host = s.host := by
  rfl
@[simp] theorem State.trapTriggers_trapM (s : State) (md : Mode) (b n : Bool) (c : Nat) : (s.trapTriggers md b n c).trapM = s.trapM := by
  rfl
@[simp] theorem State.trapTriggers_trapS (s : State) (md : Mode) (b n : Bool) (c : Nat) : (s.trapTriggers md b n c).trapS = s.trapS := by
  rfl
@[simp] theorem State.trapTriggers_trapVS (s : State) (md : Mode) (b n : Bool) (c : Nat) : (s.trapTriggers md b n c).trapVS = s.trapVS := by
  rfl
@[simp] theorem State.trapTriggers_dpc (s : State) (md : Mode) (b n : Bool) (c : Nat) : (s.trapTriggers md b n c).dpc = s.dpc := by
  rfl
@[simp] theorem State.trapTriggers_feed (s : State) (md : Mode) (b n : Bool) (c : Nat) : (s.trapTriggers md b n c).feed = s.feed := by
  rfl
@[simp] theorem State.trapTriggers_draws (s : State) (md : Mode) (b n : Bool) (c : Nat) : (s.trapTriggers md b n c).draws = s.draws := by
  rfl

@[simp] theorem State.stackTcontrol_trapRegs (s : State) (h k : Handler) : (s.stackTcontrol h).trapRegs k = s.trapRegs k := by
  unfold State.stackTcontrol; split <;> cases k <;> rfl

@[simp] theorem State.stackTcontrol_xlen (s : State) (h : Handler) : (s.stackTcontrol h).xlen = s.xlen := by
  unfold State.stackTcontrol; split <;> rfl

@[simp] theorem State.trapTriggers_trapRegs (s : State) (md : Mode) (b n : Bool) (c : Nat) (k : Handler) :
    (s.trapTriggers md b n c).trapRegs k = s.trapRegs k := by
  cases k <;> rfl

@[simp] theorem HostCsrs.masked_xlens (h : HostCsrs) (k : Handler) : (h.masked k).xlens = h.xlens := by
  cases k <;> rfl

@[simp] theorem HostCsrs.masked_medeleg (h : HostCsrs) (k : Handler) : (h.masked k).medeleg = h.medeleg := by
  cases k <;> rfl

@[simp] theorem HostCsrs.masked_hedeleg (h : HostCsrs) (k : Handler) : (h.masked k).hedeleg = h.hedeleg := by
  cases k <;> rfl

@[simp] theorem State.takeTrap_cfg (s : State) (h : Handler) (b n : Bool) (c : Nat) (v : Word) : (s.takeTrap h b n c v).cfg = s.cfg := by
  simp [State.takeTrap, State.countTrap, State.afterHostTrap]
@[simp] theorem State.takeTrap_tselect (s : State) (h : Handler) (b n : Bool) (c : Nat) (v : Word) : (s.takeTrap h b n c v).tselect = s.tselect := by
  simp [State.takeTrap, State.countTrap, State.afterHostTrap]
@[simp] theorem State.takeTrap_scontext (s : State) (h : Handler) (b n : Bool) (c : Nat) (v : Word) : (s.takeTrap h b n c v).scontext = s.scontext := by
  simp [State.takeTrap, State.countTrap, State.afterHostTrap]
@[simp] theorem State.takeTrap_mcontext (s : State) (h : Handler) (b n : Bool) (c : Nat) (v : Word) : (s.takeTrap h b n c v).mcontext = s.mcontext := by
  simp [State.takeTrap, State.countTrap, State.afterHostTrap]
@[simp] theorem State.takeTrap_matched (s : State) (h : Handler) (b n : Bool) (c : Nat) (v : Word) : (s.takeTrap h b n c v).matched = [] := by
  simp [State.takeTrap, State.countTrap, State.afterHostTrap]
@[simp] theorem State.takeTrap_dueAfter (s : State) (h : Handler) (b n : Bool) (c : Nat) (v : Word) : (s.takeTrap h b n c v).dueAfter = [] := by
  simp [State.takeTrap, State.countTrap, State.afterHostTrap]
@[simp] theorem State.takeTrap_deferred (s : State) (h : Handler) (b n : Bool) (c : Nat) (v : Word) : (s.takeTrap h b n c v).deferred = [] := by
  simp [State.takeTrap, State.countTrap, State.afterHostTrap]
@[simp] theorem State.takeTrap_outbox (s : State) (h : Handler) (b n : Bool) (c : Nat) (v : Word) : (s.takeTrap h b n c v).outbox = s.outbox := by
  simp [State.takeTrap, State.countTrap, State.afterHostTrap]
@[simp] theorem State.takeTrap_x (s : State) (h : Handler) (b n : Bool) (c : Nat) (v : Word) : (s.takeTrap h b n c v).x = s.x := by
  simp [State.takeTrap, State.countTrap, State.afterHostTrap]
@[simp] theorem State.takeTrap_pc (s : State) (h : Handler) (b n : Bool) (c : Nat) (v : Word) : (s.takeTrap h b n c v).pc = (s.xlenIn h.mode).trunc (Config.freeWord .handler s.draws 0) := by
  simp [State.takeTrap, State.countTrap, State.afterHostTrap]
@[simp] theorem State.takeTrap_mode (s : State) (h : Handler) (b n : Bool) (c : Nat) (v : Word) : (s.takeTrap h b n c v).mode = h.mode := by
  simp [State.takeTrap, State.countTrap, State.afterHostTrap]
@[simp] theorem State.takeTrap_host (s : State) (h : Handler) (b n : Bool) (c : Nat) (v : Word) : (s.takeTrap h b n c v).host = s.host.masked h := by
  simp [State.takeTrap, State.countTrap, State.afterHostTrap]
@[simp] theorem State.takeTrap_dpc (s : State) (h : Handler) (b n : Bool) (c : Nat) (v : Word) : (s.takeTrap h b n c v).dpc = s.dpc := by
  simp [State.takeTrap, State.countTrap, State.afterHostTrap]
@[simp] theorem State.takeTrap_feed (s : State) (h : Handler) (b n : Bool) (c : Nat) (v : Word) : (s.takeTrap h b n c v).feed = s.feed := by
  simp [State.takeTrap, State.countTrap, State.afterHostTrap]
@[simp] theorem State.takeTrap_draws (s : State) (h : Handler) (b n : Bool) (c : Nat) (v : Word) : (s.takeTrap h b n c v).draws = s.draws + 1 := by
  simp [State.takeTrap, State.countTrap, State.afterHostTrap]

@[simp] theorem State.takeTrap_xlen (s : State) (h : Handler) (b n : Bool) (c : Nat) (v : Word) :
    (s.takeTrap h b n c v).xlen = s.xlenIn h.mode := by
  simp [State.xlen, State.xlenIn]

/-- What a trap records for the mode it is taken to, and that it records nothing for another. -/
theorem State.takeTrap_trapRegs (s : State) (h k : Handler) (b n : Bool) (c : Nat) (v : Word) :
    (s.takeTrap h b n c v).trapRegs k = if k = h then ⟨s.pc, b, c, v⟩ else s.trapRegs k := by
  simp only [State.takeTrap, State.countTrap, State.afterHostTrap, State.tick_trapRegs, State.abandon_trapRegs, State.trapTriggers_trapRegs, State.setTrigs_trapRegs,
    State.stackTcontrol_trapRegs, State.hostTrap, State.setPc_trapRegs, State.setMode_trapRegs, State.setHost_trapRegs]
  split
  · next e => subst e; simp
  · next ne => exact State.trapRegs_setTrapRegs_ne _ _ _ _ ne

/-- `tcontrol` after a trap. -/
theorem State.takeTrap_tcontrol (s : State) (h : Handler) (b n : Bool) (c : Nat) (v : Word) :
    (s.takeTrap h b n c v).mte = (if h = .m ∧ s.cfg.hasTcontrol = true then false else s.mte) ∧
    (s.takeTrap h b n c v).mpte = (if h = .m ∧ s.cfg.hasTcontrol = true then s.mte else s.mpte) := by
  simp only [State.takeTrap, State.countTrap, State.afterHostTrap, State.tick_mte, State.tick_mpte, State.abandon_mte, State.abandon_mpte, State.trapTriggers_mte,
    State.trapTriggers_mpte, State.setTrigs_mte, State.setTrigs_mpte, State.stackTcontrol, State.hostTrap_cfg]
  split <;> simp

/-- Counting a trap changes the triggers only. -/
theorem State.countTrap_eq (s h : State) :
    s.countTrap h = h.setTrigs (State.countedTrigs s h h.trigs s.mode none) := rfl

/-- The triggers after a trap: icount has counted, and each trap trigger that matches has `hit` set. -/
theorem State.takeTrap_trigs (s : State) (h : Handler) (b n : Bool) (c : Nat) (v : Word) :
    (s.takeTrap h b n c v).trigs =
      (s.countTrap (s.afterHostTrap h b c v)).trigs.mapIdx fun i t =>
        if (s.countTrap (s.afterHostTrap h b c v)).trapMatches s.mode b n c i t then t.hitByTrap else t := by
  rfl

@[simp] theorem State.afterHostTrap_trigs (s : State) (h : Handler) (b : Bool) (c : Nat) (v : Word) :
    (s.afterHostTrap h b c v).trigs = s.trigs := by
  simp [State.afterHostTrap]

@[simp] theorem State.takeTrap_length (s : State) (h : Handler) (b n : Bool) (c : Nat) (v : Word) :
    (s.takeTrap h b n c v).trigs.length = s.trigs.length := by
  simp [State.takeTrap_trigs, State.countTrap]

@[simp] theorem State.raise_cfg (s : State) (c : Nat) (v : Word) : (s.raise c v).cfg = s.cfg := by
  unfold State.raise; split <;> simp
@[simp] theorem State.raise_tselect (s : State) (c : Nat) (v : Word) : (s.raise c v).tselect = s.tselect := by
  unfold State.raise; split <;> simp
@[simp] theorem State.raise_scontext (s : State) (c : Nat) (v : Word) : (s.raise c v).scontext = s.scontext := by
  unfold State.raise; split <;> simp
@[simp] theorem State.raise_mcontext (s : State) (c : Nat) (v : Word) : (s.raise c v).mcontext = s.mcontext := by
  unfold State.raise; split <;> simp
@[simp] theorem State.raise_matched (s : State) (c : Nat) (v : Word) : (s.raise c v).matched = [] := by
  unfold State.raise; split <;> simp
@[simp] theorem State.raise_dueAfter (s : State) (c : Nat) (v : Word) : (s.raise c v).dueAfter = [] := by
  unfold State.raise; split <;> simp
@[simp] theorem State.raise_deferred (s : State) (c : Nat) (v : Word) : (s.raise c v).deferred = [] := by
  unfold State.raise; split <;> simp
@[simp] theorem State.raise_outbox (s : State) (c : Nat) (v : Word) : (s.raise c v).outbox = s.outbox := by
  unfold State.raise; split <;> simp
@[simp] theorem State.raise_x (s : State) (c : Nat) (v : Word) : (s.raise c v).x = s.x := by
  unfold State.raise; split <;> simp
@[simp] theorem State.raise_dpc (s : State) (c : Nat) (v : Word) : (s.raise c v).dpc = s.dpc := by
  unfold State.raise; split <;> simp
@[simp] theorem State.raise_feed (s : State) (c : Nat) (v : Word) : (s.raise c v).feed = s.feed := by
  unfold State.raise; split <;> simp
@[simp] theorem State.raise_draws (s : State) (c : Nat) (v : Word) : (s.raise c v).draws = s.draws + 1 := by
  unfold State.raise; split <;> simp

@[simp] theorem State.raise_length (s : State) (c : Nat) (v : Word) : (s.raise c v).trigs.length = s.trigs.length := by
  unfold State.raise; split <;> simp

/-- Outside Debug Mode an exception is a trap. -/
theorem State.raise_eq (s : State) (c : Nat) (v : Word) (h : s.mode ≠ .debug) :
    s.raise c v = s.takeTrap (s.trapTarget c) false false c v := by
  simp [State.raise, h]

/-! ### Returning from a trap, and Debug Mode -/

@[simp] theorem State.returnFromTrap_cfg (s : State) : (s.returnFromTrap).cfg = s.cfg := by
  unfold State.returnFromTrap; split <;> rfl
@[simp] theorem State.returnFromTrap_tselect (s : State) : (s.returnFromTrap).tselect = s.tselect := by
  unfold State.returnFromTrap; split <;> rfl
@[simp] theorem State.returnFromTrap_trigs (s : State) : (s.returnFromTrap).trigs = s.trigs := by
  unfold State.returnFromTrap; split <;> rfl
@[simp] theorem State.returnFromTrap_mpte (s : State) : (s.returnFromTrap).mpte = s.mpte := by
  unfold State.returnFromTrap; split <;> rfl
@[simp] theorem State.returnFromTrap_scontext (s : State) : (s.returnFromTrap).scontext = s.scontext := by
  unfold State.returnFromTrap; split <;> rfl
@[simp] theorem State.returnFromTrap_mcontext (s : State) : (s.returnFromTrap).mcontext = s.mcontext := by
  unfold State.returnFromTrap; split <;> rfl
@[simp] theorem State.returnFromTrap_waiting (s : State) : (s.returnFromTrap).waiting = s.waiting := by
  unfold State.returnFromTrap; split <;> rfl
@[simp] theorem State.returnFromTrap_matched (s : State) : (s.returnFromTrap).matched = s.matched := by
  unfold State.returnFromTrap; split <;> rfl
@[simp] theorem State.returnFromTrap_dueAfter (s : State) : (s.returnFromTrap).dueAfter = s.dueAfter := by
  unfold State.returnFromTrap; split <;> rfl
@[simp] theorem State.returnFromTrap_deferred (s : State) : (s.returnFromTrap).deferred = s.deferred := by
  unfold State.returnFromTrap; split <;> rfl
@[simp] theorem State.returnFromTrap_outbox (s : State) : (s.returnFromTrap).outbox = s.outbox := by
  unfold State.returnFromTrap; split <;> rfl
@[simp] theorem State.returnFromTrap_x (s : State) : (s.returnFromTrap).x = s.x := by
  unfold State.returnFromTrap; split <;> rfl
@[simp] theorem State.returnFromTrap_pc (s : State) : (s.returnFromTrap).pc = s.pc := by
  unfold State.returnFromTrap; split <;> rfl
@[simp] theorem State.returnFromTrap_mode (s : State) : (s.returnFromTrap).mode = s.mode := by
  unfold State.returnFromTrap; split <;> rfl
@[simp] theorem State.returnFromTrap_host (s : State) : (s.returnFromTrap).host = s.host := by
  unfold State.returnFromTrap; split <;> rfl
@[simp] theorem State.returnFromTrap_trapM (s : State) : (s.returnFromTrap).trapM = s.trapM := by
  unfold State.returnFromTrap; split <;> rfl
@[simp] theorem State.returnFromTrap_trapS (s : State) : (s.returnFromTrap).trapS = s.trapS := by
  unfold State.returnFromTrap; split <;> rfl
@[simp] theorem State.returnFromTrap_trapVS (s : State) : (s.returnFromTrap).trapVS = s.trapVS := by
  unfold State.returnFromTrap; split <;> rfl
@[simp] theorem State.returnFromTrap_dpc (s : State) : (s.returnFromTrap).dpc = s.dpc := by
  unfold State.returnFromTrap; split <;> rfl
@[simp] theorem State.returnFromTrap_feed (s : State) : (s.returnFromTrap).feed = s.feed := by
  unfold State.returnFromTrap; split <;> rfl
@[simp] theorem State.returnFromTrap_draws (s : State) : (s.returnFromTrap).draws = s.draws := by
  unfold State.returnFromTrap; split <;> rfl

@[simp] theorem State.enterDebug_cfg (s : State) : (s.enterDebug).cfg = s.cfg := by
  simp [State.enterDebug]
@[simp] theorem State.enterDebug_tselect (s : State) : (s.enterDebug).tselect = s.tselect := by
  simp [State.enterDebug]
@[simp] theorem State.enterDebug_trigs (s : State) : (s.enterDebug).trigs = s.trigs := by
  simp [State.enterDebug]
@[simp] theorem State.enterDebug_mte (s : State) : (s.enterDebug).mte = s.mte := by
  simp [State.enterDebug]
@[simp] theorem State.enterDebug_mpte (s : State) : (s.enterDebug).mpte = s.mpte := by
  simp [State.enterDebug]
@[simp] theorem State.enterDebug_scontext (s : State) : (s.enterDebug).scontext = s.scontext := by
  simp [State.enterDebug]
@[simp] theorem State.enterDebug_mcontext (s : State) : (s.enterDebug).mcontext = s.mcontext := by
  simp [State.enterDebug]
@[simp] theorem State.enterDebug_matched (s : State) : (s.enterDebug).matched = [] := by
  simp [State.enterDebug]
@[simp] theorem State.enterDebug_dueAfter (s : State) : (s.enterDebug).dueAfter = [] := by
  simp [State.enterDebug]
@[simp] theorem State.enterDebug_deferred (s : State) : (s.enterDebug).deferred = [] := by
  simp [State.enterDebug]
@[simp] theorem State.enterDebug_outbox (s : State) : (s.enterDebug).outbox = s.outbox ++ [.enterDebug s.pc] := by
  simp [State.enterDebug]
@[simp] theorem State.enterDebug_x (s : State) : (s.enterDebug).x = s.x := by
  simp [State.enterDebug]
@[simp] theorem State.enterDebug_pc (s : State) : (s.enterDebug).pc = s.pc := by
  simp [State.enterDebug]
@[simp] theorem State.enterDebug_mode (s : State) : (s.enterDebug).mode = .debug := by
  simp [State.enterDebug]
@[simp] theorem State.enterDebug_host (s : State) : (s.enterDebug).host = s.host := by
  simp [State.enterDebug]
@[simp] theorem State.enterDebug_trapM (s : State) : (s.enterDebug).trapM = s.trapM := by
  simp [State.enterDebug]
@[simp] theorem State.enterDebug_trapS (s : State) : (s.enterDebug).trapS = s.trapS := by
  simp [State.enterDebug]
@[simp] theorem State.enterDebug_trapVS (s : State) : (s.enterDebug).trapVS = s.trapVS := by
  simp [State.enterDebug]
@[simp] theorem State.enterDebug_dpc (s : State) : (s.enterDebug).dpc = s.pc := by
  simp [State.enterDebug]
@[simp] theorem State.enterDebug_feed (s : State) : (s.enterDebug).feed = s.feed := by
  simp [State.enterDebug]
@[simp] theorem State.enterDebug_draws (s : State) : (s.enterDebug).draws = s.draws + 1 := by
  simp [State.enterDebug]

@[simp] theorem State.enterDebug_trapRegs (s : State) (k : Handler) : s.enterDebug.trapRegs k = s.trapRegs k := by
  simp [State.enterDebug]

/-! ### Firing -/

@[simp] theorem State.fireAll_cfg (s : State) (ds : List Due) : (s.fireAll ds).cfg = s.cfg := by
  unfold State.fireAll
  induction ds generalizing s with
  | nil => rfl
  | cons d ds ih => simp [List.foldl_cons, ih]
@[simp] theorem State.fireAll_tselect (s : State) (ds : List Due) : (s.fireAll ds).tselect = s.tselect := by
  unfold State.fireAll
  induction ds generalizing s with
  | nil => rfl
  | cons d ds ih => simp [List.foldl_cons, ih]
@[simp] theorem State.fireAll_mte (s : State) (ds : List Due) : (s.fireAll ds).mte = s.mte := by
  unfold State.fireAll
  induction ds generalizing s with
  | nil => rfl
  | cons d ds ih => simp [List.foldl_cons, ih]
@[simp] theorem State.fireAll_mpte (s : State) (ds : List Due) : (s.fireAll ds).mpte = s.mpte := by
  unfold State.fireAll
  induction ds generalizing s with
  | nil => rfl
  | cons d ds ih => simp [List.foldl_cons, ih]
@[simp] theorem State.fireAll_scontext (s : State) (ds : List Due) : (s.fireAll ds).scontext = s.scontext := by
  unfold State.fireAll
  induction ds generalizing s with
  | nil => rfl
  | cons d ds ih => simp [List.foldl_cons, ih]
@[simp] theorem State.fireAll_mcontext (s : State) (ds : List Due) : (s.fireAll ds).mcontext = s.mcontext := by
  unfold State.fireAll
  induction ds generalizing s with
  | nil => rfl
  | cons d ds ih => simp [List.foldl_cons, ih]
@[simp] theorem State.fireAll_waiting (s : State) (ds : List Due) : (s.fireAll ds).waiting = s.waiting := by
  unfold State.fireAll
  induction ds generalizing s with
  | nil => rfl
  | cons d ds ih => simp [List.foldl_cons, ih]
@[simp] theorem State.fireAll_matched (s : State) (ds : List Due) : (s.fireAll ds).matched = s.matched := by
  unfold State.fireAll
  induction ds generalizing s with
  | nil => rfl
  | cons d ds ih => simp [List.foldl_cons, ih]
@[simp] theorem State.fireAll_dueAfter (s : State) (ds : List Due) : (s.fireAll ds).dueAfter = s.dueAfter := by
  unfold State.fireAll
  induction ds generalizing s with
  | nil => rfl
  | cons d ds ih => simp [List.foldl_cons, ih]
@[simp] theorem State.fireAll_deferred (s : State) (ds : List Due) : (s.fireAll ds).deferred = s.deferred := by
  unfold State.fireAll
  induction ds generalizing s with
  | nil => rfl
  | cons d ds ih => simp [List.foldl_cons, ih]
@[simp] theorem State.fireAll_outbox (s : State) (ds : List Due) : (s.fireAll ds).outbox = s.outbox := by
  unfold State.fireAll
  induction ds generalizing s with
  | nil => rfl
  | cons d ds ih => simp [List.foldl_cons, ih]
@[simp] theorem State.fireAll_x (s : State) (ds : List Due) : (s.fireAll ds).x = s.x := by
  unfold State.fireAll
  induction ds generalizing s with
  | nil => rfl
  | cons d ds ih => simp [List.foldl_cons, ih]
@[simp] theorem State.fireAll_pc (s : State) (ds : List Due) : (s.fireAll ds).pc = s.pc := by
  unfold State.fireAll
  induction ds generalizing s with
  | nil => rfl
  | cons d ds ih => simp [List.foldl_cons, ih]
@[simp] theorem State.fireAll_mode (s : State) (ds : List Due) : (s.fireAll ds).mode = s.mode := by
  unfold State.fireAll
  induction ds generalizing s with
  | nil => rfl
  | cons d ds ih => simp [List.foldl_cons, ih]
@[simp] theorem State.fireAll_host (s : State) (ds : List Due) : (s.fireAll ds).host = s.host := by
  unfold State.fireAll
  induction ds generalizing s with
  | nil => rfl
  | cons d ds ih => simp [List.foldl_cons, ih]
@[simp] theorem State.fireAll_trapM (s : State) (ds : List Due) : (s.fireAll ds).trapM = s.trapM := by
  unfold State.fireAll
  induction ds generalizing s with
  | nil => rfl
  | cons d ds ih => simp [List.foldl_cons, ih]
@[simp] theorem State.fireAll_trapS (s : State) (ds : List Due) : (s.fireAll ds).trapS = s.trapS := by
  unfold State.fireAll
  induction ds generalizing s with
  | nil => rfl
  | cons d ds ih => simp [List.foldl_cons, ih]
@[simp] theorem State.fireAll_trapVS (s : State) (ds : List Due) : (s.fireAll ds).trapVS = s.trapVS := by
  unfold State.fireAll
  induction ds generalizing s with
  | nil => rfl
  | cons d ds ih => simp [List.foldl_cons, ih]
@[simp] theorem State.fireAll_dpc (s : State) (ds : List Due) : (s.fireAll ds).dpc = s.dpc := by
  unfold State.fireAll
  induction ds generalizing s with
  | nil => rfl
  | cons d ds ih => simp [List.foldl_cons, ih]
@[simp] theorem State.fireAll_feed (s : State) (ds : List Due) : (s.fireAll ds).feed = s.feed := by
  unfold State.fireAll
  induction ds generalizing s with
  | nil => rfl
  | cons d ds ih => simp [List.foldl_cons, ih]
@[simp] theorem State.fireAll_draws (s : State) (ds : List Due) : (s.fireAll ds).draws = s.draws := by
  unfold State.fireAll
  induction ds generalizing s with
  | nil => rfl
  | cons d ds ih => simp [List.foldl_cons, ih]

@[simp] theorem State.fireAll_length (s : State) (ds : List Due) : (s.fireAll ds).trigs.length = s.trigs.length := by
  unfold State.fireAll
  induction ds generalizing s with
  | nil => rfl
  | cons d ds ih => simp [List.foldl_cons, ih]

@[simp] theorem State.markMatches_cfg (s : State) : (s.markMatches).cfg = s.cfg := by
  unfold State.markMatches; split <;> rfl
@[simp] theorem State.markMatches_tselect (s : State) : (s.markMatches).tselect = s.tselect := by
  unfold State.markMatches; split <;> rfl
@[simp] theorem State.markMatches_mte (s : State) : (s.markMatches).mte = s.mte := by
  unfold State.markMatches; split <;> rfl
@[simp] theorem State.markMatches_mpte (s : State) : (s.markMatches).mpte = s.mpte := by
  unfold State.markMatches; split <;> rfl
@[simp] theorem State.markMatches_scontext (s : State) : (s.markMatches).scontext = s.scontext := by
  unfold State.markMatches; split <;> rfl
@[simp] theorem State.markMatches_mcontext (s : State) : (s.markMatches).mcontext = s.mcontext := by
  unfold State.markMatches; split <;> rfl
@[simp] theorem State.markMatches_waiting (s : State) : (s.markMatches).waiting = s.waiting := by
  unfold State.markMatches; split <;> rfl
@[simp] theorem State.markMatches_matched (s : State) : (s.markMatches).matched = s.matched := by
  unfold State.markMatches; split <;> rfl
@[simp] theorem State.markMatches_dueAfter (s : State) : (s.markMatches).dueAfter = s.dueAfter := by
  unfold State.markMatches; split <;> rfl
@[simp] theorem State.markMatches_deferred (s : State) : (s.markMatches).deferred = s.deferred := by
  unfold State.markMatches; split <;> rfl
@[simp] theorem State.markMatches_outbox (s : State) : (s.markMatches).outbox = s.outbox := by
  unfold State.markMatches; split <;> rfl
@[simp] theorem State.markMatches_x (s : State) : (s.markMatches).x = s.x := by
  unfold State.markMatches; split <;> rfl
@[simp] theorem State.markMatches_pc (s : State) : (s.markMatches).pc = s.pc := by
  unfold State.markMatches; split <;> rfl
@[simp] theorem State.markMatches_mode (s : State) : (s.markMatches).mode = s.mode := by
  unfold State.markMatches; split <;> rfl
@[simp] theorem State.markMatches_host (s : State) : (s.markMatches).host = s.host := by
  unfold State.markMatches; split <;> rfl
@[simp] theorem State.markMatches_trapM (s : State) : (s.markMatches).trapM = s.trapM := by
  unfold State.markMatches; split <;> rfl
@[simp] theorem State.markMatches_trapS (s : State) : (s.markMatches).trapS = s.trapS := by
  unfold State.markMatches; split <;> rfl
@[simp] theorem State.markMatches_trapVS (s : State) : (s.markMatches).trapVS = s.trapVS := by
  unfold State.markMatches; split <;> rfl
@[simp] theorem State.markMatches_dpc (s : State) : (s.markMatches).dpc = s.dpc := by
  unfold State.markMatches; split <;> rfl
@[simp] theorem State.markMatches_feed (s : State) : (s.markMatches).feed = s.feed := by
  unfold State.markMatches; split <;> rfl
@[simp] theorem State.markMatches_draws (s : State) : (s.markMatches).draws = s.draws := by
  unfold State.markMatches; split <;> rfl

theorem oneOf_mem {c : List Word} (n : Nat) (h : c ≠ []) : oneOf c n ∈ c := by
  match c, h with
  | [v], _ => simp [oneOf]
  | v :: w :: t, _ =>
    have hk : n % (v :: w :: t).length < (v :: w :: t).length := Nat.mod_lt _ (by simp)
    simp only [oneOf, List.getD_eq_getElem _ _ hk]
    exact List.getElem_mem hk


@[simp] theorem State.takeBreakpoint_cfg (s : State) (ds : List Due) : (s.takeBreakpoint ds).cfg = s.cfg := by
  simp [State.takeBreakpoint]
@[simp] theorem State.takeBreakpoint_tselect (s : State) (ds : List Due) : (s.takeBreakpoint ds).tselect = s.tselect := by
  simp [State.takeBreakpoint]
@[simp] theorem State.takeBreakpoint_scontext (s : State) (ds : List Due) : (s.takeBreakpoint ds).scontext = s.scontext := by
  simp [State.takeBreakpoint]
@[simp] theorem State.takeBreakpoint_mcontext (s : State) (ds : List Due) : (s.takeBreakpoint ds).mcontext = s.mcontext := by
  simp [State.takeBreakpoint]
@[simp] theorem State.takeBreakpoint_matched (s : State) (ds : List Due) : (s.takeBreakpoint ds).matched = [] := by
  simp [State.takeBreakpoint]
@[simp] theorem State.takeBreakpoint_dueAfter (s : State) (ds : List Due) : (s.takeBreakpoint ds).dueAfter = [] := by
  simp [State.takeBreakpoint]
@[simp] theorem State.takeBreakpoint_deferred (s : State) (ds : List Due) : (s.takeBreakpoint ds).deferred = [] := by
  simp [State.takeBreakpoint]
@[simp] theorem State.takeBreakpoint_outbox (s : State) (ds : List Due) : (s.takeBreakpoint ds).outbox = s.outbox ++ [.breakpoint (s.chooseTval ds)] := by
  simp [State.takeBreakpoint]
@[simp] theorem State.takeBreakpoint_x (s : State) (ds : List Due) : (s.takeBreakpoint ds).x = s.x := by
  simp [State.takeBreakpoint]
@[simp] theorem State.takeBreakpoint_dpc (s : State) (ds : List Due) : (s.takeBreakpoint ds).dpc = s.dpc := by
  simp [State.takeBreakpoint]
@[simp] theorem State.takeBreakpoint_feed (s : State) (ds : List Due) : (s.takeBreakpoint ds).feed = s.feed := by
  simp [State.takeBreakpoint]
@[simp] theorem State.takeBreakpoint_draws (s : State) (ds : List Due) : (s.takeBreakpoint ds).draws = s.draws + 1 := by
  simp [State.takeBreakpoint]

end Sys2Proof.Machine
end

