-- ==== Sys2Proof/Laws/Tdata2.lean ====
section
/-! SUPPORT. What `tdata2` and `tdata3` can hold: the values of one configuration are among those of its type, and the search for a substitute is
exact. -/

namespace Sys2Proof.Machine

/-! ### Ranges of addresses -/

theorem inRanges_iff (l : List (Nat × Nat)) (v : Word) : inRanges l v = true ↔ ∃ r ∈ l, r.1 ≤ v.toNat ∧ v.toNat ≤ r.2 := by
  simp [inRanges]

/-- What `narrowRanges` adds to the valid addresses. -/
theorem isAddress_iff (cfg : Config) (v : Word) :
    isAddress cfg v = true ↔ inRanges (cfg.validRanges ++ narrowRanges cfg) v = true := by
  have hs : inRanges (cfg.validRanges ++ narrowRanges cfg) v = (validAddr cfg v || inRanges (narrowRanges cfg) v) := by
    simp [inRanges, validAddr]
  rw [isAddress, hs]
  by_cases hv : validAddr cfg v = true
  · simp [hv]
  simp only [hv, Bool.false_or]
  unfold validNarrow narrowRanges
  cases hn : cfg.narrowXlen
  · simp [inRanges]
  cases hd : cfg.dxlen
  · simp only [widen, Bool.true_and, Bool.and_eq_true, beq_iff_eq, reduceCtorEq, and_false, if_false]
    constructor
    · rintro ⟨h, k⟩; rw [h] at k; exact absurd k hv
    · simp [inRanges]
  · simp only [widen, Bool.true_and, Bool.and_eq_true, beq_iff_eq, and_self, if_true, validAddr, inRanges_iff, List.mem_map]
    have ht : (Xlen.trunc .x32 v).toNat = v.toNat % 2 ^ 32 := by simp [Xlen.trunc]; omega
    have hw : (v.extractLsb' 0 32).signExtend 64 = v ↔ v.toNat < 2 ^ 31 ∨ 2 ^ 64 - 2 ^ 31 ≤ v.toNat := by
      rw [← BitVec.toNat_inj, BitVec.toNat_signExtend]
      simp [BitVec.msb_eq_decide]
      split <;> omega
    rw [ht, hw]
    simp only [validAddr, inRanges_iff] at hv
    constructor
    · rintro ⟨h, r, hr, k1, k2⟩
      rcases h with h | h
      · exact absurd ⟨r, hr, by omega⟩ hv
      · exact ⟨_, ⟨r, hr, rfl⟩, by dsimp only; omega, by dsimp only; omega⟩
    · rintro ⟨_, ⟨r, hr, rfl⟩, k1, k2⟩
      dsimp only at k1 k2
      exact ⟨by omega, r, hr, by omega, by omega⟩

/-- A NAPOT range that must be held is one with a valid address in it (spec/44_mcontrol6.md R450). -/
theorem napotMeetsAddress_iff (cfg : Config) (v : Word) :
    napotMeetsAddress cfg v = true ↔ ∃ a : Word, isAddress cfg a = true ∧ v &&& (v + 1) ≤ a ∧ a ≤ v ||| (v + 1) := by
  simp only [napotMeetsAddress, List.any_eq_true, decide_eq_true_eq, isAddress_iff, inRanges_iff, BitVec.le_def]
  have := (v ||| (v + 1)).isLt
  constructor
  · rintro ⟨r, hr, h⟩
    refine ⟨BitVec.ofNat 64 (max r.1 (v &&& (v + 1)).toNat), ⟨r, hr, ?_⟩, ?_⟩ <;>
      rw [BitVec.toNat_ofNat, Nat.mod_eq_of_lt (by omega)] <;> omega
  · rintro ⟨a, ⟨r, hr, h1, h2⟩, h3, h4⟩
    exact ⟨r, hr, by omega⟩

/-! ### Exclusions -/

/-- The mask sees the top four bits only. -/
theorem and_typeMask (v w : Word) (h : v.extractLsb' 60 4 = w.extractLsb' 60 4) : v &&& typeMask = w &&& typeMask := by
  apply BitVec.eq_of_getLsbD_eq
  intro i hi
  simp only [BitVec.getLsbD_and]
  by_cases k : i < 60
  · have : typeMask.getLsbD i = false := (by decide : ∀ i, i < 60 → typeMask.getLsbD i = false) i k
    simp [this]
  · have := congrArg (fun x => BitVec.getLsbD x (i - 60)) h
    have hk : 60 + (i - 60) = i := by omega
    have hi' : i - 60 < 4 := by omega
    simp [hi', hk] at this
    rw [this]

/-- The top four bits of an image are the type (spec/10_state.md R29). -/
theorem image64_top (t : Tdata1) : t.image64.extractLsb' 60 4 = BitVec.ofNat 4 t.typ := by
  obtain ⟨d, v⟩ := t
  apply BitVec.eq_of_getLsbD_eq
  intro i hi
  cases v <;> simp only [Tdata1.image64, Tdata1.typ, View.typ, BitVec.getLsbD_extractLsb', BitVec.getLsbD_append, hi] <;> interval_cases i <;> simp

@[simp] theorem View.shape_typ (v : View) : v.shape.typ = v.typ := by cases v <;> rfl

/-- What is excluded under a whole type depends on the type alone. -/
theorem excludedByType_congr (p : TrigImpl) (v w : View) (x : Word) (h : v.typ = w.typ) : excludedByType p v x = excludedByType p w x := by
  unfold excludedByType View.shapeImage
  rw [and_typeMask _ (Tdata1.image64 ⟨false, w.shape⟩)]
  rw [image64_top, image64_top]; simp [Tdata1.typ, h]

/-- What is excluded under a whole type is excluded under every configuration of it. -/
theorem excluded_of_type (p : TrigImpl) (v : View) (x : Word) (h : excludedByType p v x = true) : excluded p v x = true := by
  simp only [excludedByType, excluded, List.any_eq_true, Bool.and_eq_true, beq_iff_eq] at h ⊢
  obtain ⟨r, hr, ⟨h1, h2⟩, h3⟩ := h
  exact ⟨r, hr, by rw [h1]; exact h2, h3⟩

/-- A value that one configuration can hold is one that its type can hold. -/
theorem heldByType_of (cfg : Config) (p : TrigImpl) (v w : View) (x : Word) (ht : v.typ = w.typ)
    (hb : tdata2Base cfg p v x = true → tdata2Base cfg p w x = true) (hm : mustHold cfg p v x = true → mustHold cfg p w x = true)
    (h : (tdata2Base cfg p v x && (mustHold cfg p v x || !excluded p v x)) = true) : heldByType cfg p w x = true := by
  simp only [heldByType, Bool.and_eq_true, Bool.or_eq_true, Bool.not_eq_true'] at h ⊢
  refine ⟨hb h.1, h.2.imp hm fun e => ?_⟩
  rw [← excludedByType_congr p v w x ht]
  cases k : excludedByType p v x
  · rfl
  · exact absurd (excluded_of_type p v x k) (by simp [e])

/-- A value that the type can hold with a `match` it accepts. -/
theorem heldByMatch_of (cfg : Config) (p : TrigImpl) (v : ViewImpl) (napot : Bool) (view : Bool → BitVec 4 → View) (sel : Bool)
    (op : BitVec 4) (x : Word) (hop : matchLegal v napot op.toNat = true) (h : heldByType cfg p (view sel op) x = true) :
    heldByMatch cfg p v napot view x = true := by
  have hmem : op.toNat ∈ v.matchOps := by simp [matchLegal] at hop; exact hop.1.1
  simp only [heldByMatch, Bool.and_eq_true, List.any_eq_true]
  exact ⟨_, hmem, hop, sel, by cases sel <;> simp, by simpa using h⟩

/-- A value that is legal under a configuration the trigger supports is one that the disabled trigger can hold (spec/40_csr_access.md R286,
R298): the trigger can be disabled whatever `tdata2` holds. -/
theorem tdata2Legal_forSome (cfg : Config) (p : TrigImpl) (dm : Bool) (v : View) (x : Word)
    (hf : v.fieldsLegal cfg p dm = true) (h : tdata2Legal cfg p v x = true) : tdata2LegalForSome cfg p x = true := by
  unfold tdata2Legal at h
  split at h
  · exact h
  · rename_i nd
    cases v with
    | disabled d => simp [View.isDisabledForm, View.typ] at nd
    | mcontrol f =>
      have k := heldByType_of cfg p (.mcontrol f) (.mcontrol { select := f.select, matchOp := f.matchOp }) x rfl id id h
      simp only [View.fieldsLegal, Bool.and_eq_true] at hf
      have u := heldByMatch_of cfg p p.mcontrol _ (fun sel op => .mcontrol { select := sel, matchOp := op }) f.select f.matchOp x
        hf.1.2 k
      simp only [tdata2LegalForSome, hf.1.1.1, u, Bool.and_true, Bool.true_or]
    | mcontrol6 f =>
      have k := heldByType_of cfg p (.mcontrol6 f) (.mcontrol6 { select := f.select, matchOp := f.matchOp }) x rfl id id h
      simp only [View.fieldsLegal, Bool.and_eq_true] at hf
      have u := heldByMatch_of cfg p p.mcontrol6 _ (fun sel op => .mcontrol6 { select := sel, matchOp := op }) f.select f.matchOp x
        hf.1.2 k
      simp only [tdata2LegalForSome, hf.1.1.1, u, Bool.and_true, Bool.or_true, Bool.true_or]
    | icount f =>
      have k := heldByType_of cfg p (.icount f) (.icount {}) x rfl id id h
      simp only [View.fieldsLegal, Bool.and_eq_true] at hf
      simp only [tdata2LegalForSome, hf.1, k, Bool.and_true, Bool.or_true, Bool.true_or]
    | itrigger f =>
      have k := heldByType_of cfg p (.itrigger f) (.itrigger {}) x rfl id id h
      simp only [View.fieldsLegal, Bool.and_eq_true] at hf
      simp only [tdata2LegalForSome, hf.1, k, Bool.and_true, Bool.or_true, Bool.true_or]
    | etrigger f =>
      have k := heldByType_of cfg p (.etrigger f) (.etrigger {}) x rfl id id h
      simp only [View.fieldsLegal, Bool.and_eq_true] at hf
      simp only [tdata2LegalForSome, hf.1, k, Bool.and_true, Bool.or_true, Bool.true_or]
    | tmext f =>
      have k := heldByType_of cfg p (.tmext f) (.tmext {}) x rfl id id h
      simp only [View.fieldsLegal, Bool.and_eq_true] at hf
      simp only [tdata2LegalForSome, hf.1, k, Bool.and_true, Bool.or_true, Bool.true_or]

/-! ### `tdata3` -/

/-- 0 has every tied bit 0. -/
theorem Textra.normal_zero (cfg : Config) (p : TrigImpl) (v : View) : Textra.normal cfg p v {} = {} := by
  have h : Textra.low32 {} = {} := by decide
  unfold Textra.normal
  split
  · rw [h, ite_self]
    simp
  · rfl

/-- 0 is legal under every configuration of a trigger that is not disabled ("may only support 0 (ignore)", R300). -/
theorem tdata3Legal_zero (cfg : Config) (p : TrigImpl) (v : View) (h : v.isDisabledForm p = false) :
    tdata3Legal cfg p v {} = true := by
  rw [tdata3Legal, h, tdata3Base, Textra.normal_zero]
  simp [excludedTdata3, Textra.selectsLegal, mhselectLegal, sselectLegal]

/-- What is excluded under a whole type is excluded under every configuration of it. -/
theorem excludedTdata3_of_type (p : TrigImpl) (v w : View) (t : Textra) (e : w.typ = v.typ)
    (h : excludedTdata3ByType p w t = true) : excludedTdata3 p v t = true := by
  have k : w.shapeImage &&& typeMask = v.shapeImage &&& typeMask :=
    and_typeMask _ _ (by simp [View.shapeImage, image64_top, Tdata1.typ, e])
  simp only [excludedTdata3ByType, excludedTdata3, List.any_eq_true, Bool.and_eq_true, beq_iff_eq, bne_iff_ne] at h ⊢
  obtain ⟨h0, r, hr, ⟨h1, h2⟩, h3⟩ := h
  exact ⟨h0, r, hr, by rw [h1, ← k]; exact h2, h3⟩

/-- What `tdata3` can hold at most depends on the type alone. -/
theorem tdata3Base_congr (cfg : Config) (p : TrigImpl) (v w : View) (t : Textra) (e : v.typ = w.typ) :
    tdata3Base cfg p v t = tdata3Base cfg p w t := by
  have k : usesTdata3 p v = usesTdata3 p w := by
    revert e; cases v <;> cases w <;> simp [View.typ, usesTdata3]
  simp only [tdata3Base, Textra.normal, k]

/-- A value that is legal under a configuration the trigger supports is one that the disabled trigger can hold. -/
theorem tdata3Legal_forSome (cfg : Config) (p : TrigImpl) (dm : Bool) (v : View) (t : Textra)
    (hf : v.fieldsLegal cfg p dm = true) (h : tdata3Legal cfg p v t = true) : tdata3LegalForSome cfg p t = true := by
  unfold tdata3Legal at h
  split at h
  · exact h
  · rename_i nd
    obtain ⟨w, hw, e⟩ : ∃ w ∈ typeViews, w.typ = v.typ := by cases v <;> simp [typeViews, View.typ]
    have sup : supportsType p v.typ = true := by
      cases v <;> simp_all [View.fieldsLegal, View.typ, View.isDisabledForm]
    simp only [Bool.and_eq_true, Bool.not_eq_true'] at h
    simp only [tdata3LegalForSome, List.any_eq_true, Bool.and_eq_true, Bool.not_eq_true']
    refine ⟨w, hw, ⟨by rw [e]; exact sup, by rw [tdata3Base_congr cfg p w v t e]; exact h.1⟩, ?_⟩
    cases k : excludedTdata3ByType p w t
    · rfl
    · exact absurd (excludedTdata3_of_type p v w t e k) (by simp [h.2])

/-- What a write of `tdata3` can store: the value asked for with its tied bits 0, another legal one, or 0. -/
theorem legalizeTdata3_cases (cfg : Config) (p : TrigImpl) (i : Nat) (t1 : Tdata1) (x : Xlen) (old v : Textra) :
    tdata3Legal cfg p t1.view (legalizeTdata3 cfg p i t1 x old v) = true ∨ legalizeTdata3 cfg p i t1 x old v = {} := by
  unfold legalizeTdata3
  dsimp only
  split
  · next h => exact .inl (Bool.and_eq_true_iff.mp h).1
  · unfold tdata3Substitute
    cases h : List.find? (tdata3Legal cfg p t1.view) _ with
    | none => exact .inr rfl
    | some t => exact .inl (List.find?_some h)

/-- A legal value that is not refused is stored. -/
theorem legalizeTdata3_legal (cfg : Config) (p : TrigImpl) (i : Nat) (t1 : Tdata1) (x : Xlen) (old v : Textra)
    (hn : v.normal cfg p t1.view = v) (hl : tdata3Legal cfg p t1.view v = true) (hr : refusedTdata3 p i t1 old v = false) :
    legalizeTdata3 cfg p i t1 x old v = v := by
  simp [legalizeTdata3, hn, hl, hr]

/-! ### The search -/

/-- What the search finds passes the test. -/
theorem firstWord_ok (ok : Word → Bool) (k : Nat) (v w : Word) (h : firstWord ok k v = some w) : ok w = true := by
  induction k generalizing v with
  | zero => simp only [firstWord] at h; split at h <;> simp_all
  | succ k ih =>
    simp only [firstWord] at h
    split at h
    · next u e => exact ih v (by rw [e]; exact h)
    · exact ih _ h

/-- Where the search finds nothing, no value passes. -/
theorem firstWord_none (ok : Word → Bool) (k : Nat) (v w : Word) (hk : w.toNat < 2 ^ k)
    (h : firstWord ok k v = none) : ok (v ||| w) = false := by
  induction k generalizing v w with
  | zero =>
    have : w = 0#64 := BitVec.eq_of_toNat_eq (by simpa using hk)
    simp only [firstWord] at h
    split at h <;> simp_all
  | succ k ih =>
    simp only [firstWord] at h
    split at h
    · cases h
    · next e =>
      by_cases c : w.toNat < 2 ^ k
      · exact ih v w c e
      · have hb : w.getLsbD k = true :=
          Nat.testBit_of_two_pow_le_and_two_pow_add_one_gt (Nat.le_of_not_lt c) hk
        have key : v ||| w = (v ||| 1#64 <<< k) ||| (w &&& ~~~(1#64 <<< k)) := by
          apply BitVec.eq_of_getLsbD_eq
          intro i hi
          by_cases hik : i = k
          · subst hik; simp [hb, hi]
          · have : (1#64 <<< k).getLsbD i = false := by
              simp only [BitVec.getLsbD_shiftLeft, BitVec.getLsbD_one]
              simp; omega
            simp only [BitVec.getLsbD_or, BitVec.getLsbD_and, BitVec.getLsbD_not, this, hi]
            simp
        rw [key]
        refine ih _ _ (Nat.lt_pow_two_of_testBit _ fun j hj => ?_) h
        change (w &&& ~~~(1#64 <<< k)).getLsbD j = false
        by_cases hjk : j = k
        · subst hjk
          by_cases h64 : j < 64 <;> simp [h64]
        · have : w.getLsbD j = false :=
            Nat.testBit_lt_two_pow (lt_of_lt_of_le hk (Nat.pow_le_pow_right (by omega) (by omega)))
          simp [this]

/-- What is found among several passes the test, and where nothing is found no value of `n` bits passes. -/
theorem someWord_cases (ok : Word → Bool) (likely : List Word) (n : Nat) :
    (∃ w, someWord ok likely n = some w ∧ ok w = true) ∨
      (someWord ok likely n = none ∧ (∀ w ∈ likely, ok w = false) ∧ ∀ w : Word, w.toNat < 2 ^ n → ok w = false) := by
  unfold someWord
  cases h : likely.find? ok with
  | some w => exact .inl ⟨w, rfl, List.find?_some h⟩
  | none =>
    cases k : firstWord ok n 0 with
    | some w => exact .inl ⟨w, rfl, firstWord_ok ok n 0 w k⟩
    | none => exact .inr ⟨rfl, by simpa using h, fun w hw => by simpa using firstWord_none ok n 0 w hw k⟩

end Sys2Proof.Machine
end

