-- ==== Sys2Proof/Laws/Kept.lean ====
section
/-! SUPPORT. What a step can do to the Trigger Module's state without a CSR write: `State.Kept`. Hardware sets status bits
(spec/10_state.md R65) and nothing else, so every trigger keeps its parameters, `tdata2`, `tdata3` and all of `tdata1` but those bits
(`Trigger.sameConfig`), and stays legal. A proof about every step cites `step_cases` (Laws/Step.lean) and these. -/

namespace Sys2Proof.Machine

/-- What hardware leaves of a trigger. -/
structure Trigger.Evolves (cfg : Config) (t u : Trigger) : Prop where
  impl : u.impl = t.impl
  tdata2 : u.tdata2 = t.tdata2
  tdata3 : u.tdata3 = t.tdata3
  tdata3Sext : u.tdata3Sext = t.tdata3Sext
  dmode : u.tdata1.dmode = t.tdata1.dmode
  typ : u.tdata1.typ = t.tdata1.typ
  link : u.tdata1.isLink = t.tdata1.isLink
  settings : u.tdata1.view.settings = t.tdata1.view.settings ∨
    (t.impl.countHardwired = true ∧ u.tdata1.view.settings = t.tdata1.view.settings.disarmed)
  legal : trigLegal cfg t = true → trigLegal cfg u = true

theorem View.disarmed_disarmed (v : View) : v.disarmed.disarmed = v.disarmed := by cases v <;> rfl

theorem Trigger.Evolves.refl (cfg : Config) (t : Trigger) : t.Evolves cfg t :=
  ⟨rfl, rfl, rfl, rfl, rfl, rfl, rfl, .inl rfl, id⟩

/-- What hardware leaves of a trigger is its configuration. -/
theorem Trigger.Evolves.sameConfig {cfg : Config} {t u : Trigger} (h : t.Evolves cfg u) : t.sameConfig u = true := by
  simpa [Trigger.sameConfig, h.impl, h.tdata2, h.tdata3, h.tdata3Sext, h.dmode] using h.settings

theorem Trigger.Evolves.trans {cfg : Config} {t u v : Trigger} (h : t.Evolves cfg u) (k : u.Evolves cfg v) :
    t.Evolves cfg v :=
  ⟨k.impl.trans h.impl, k.tdata2.trans h.tdata2, k.tdata3.trans h.tdata3, k.tdata3Sext.trans h.tdata3Sext,
    k.dmode.trans h.dmode, k.typ.trans h.typ, k.link.trans h.link, by
      rcases h.settings with a | ⟨w, a⟩ <;> rcases k.settings with b | ⟨x, b⟩
      · exact .inl (b.trans a)
      · exact .inr ⟨h.impl ▸ x, by rw [b, a]⟩
      · exact .inr ⟨w, b.trans a⟩
      · exact .inr ⟨w, by rw [b, a, View.disarmed_disarmed]⟩,
    fun l => k.legal (h.legal l)⟩

/-- What hardware leaves of the whole. -/
structure State.Kept (s t : State) : Prop where
  cfg : t.cfg = s.cfg
  tselect : t.tselect = s.tselect
  scontext : t.scontext = s.scontext
  mcontext : t.mcontext = s.mcontext
  tcontrol : s.cfg.hasTcontrol = false → t.mte = s.mte ∧ t.mpte = s.mpte
  trigs : List.Forall₂ (Trigger.Evolves s.cfg) s.trigs t.trigs

theorem evolves_refl (cfg : Config) (ts : List Trigger) : List.Forall₂ (Trigger.Evolves cfg) ts ts :=
  List.forall₂_same.mpr fun t _ => Trigger.Evolves.refl cfg t

theorem State.Kept.refl (s : State) : s.Kept s := ⟨rfl, rfl, rfl, rfl, fun _ => ⟨rfl, rfl⟩, evolves_refl _ _⟩

theorem evolves_trans {cfg : Config} {ts us vs : List Trigger} (h : List.Forall₂ (Trigger.Evolves cfg) ts us)
    (k : List.Forall₂ (Trigger.Evolves cfg) us vs) : List.Forall₂ (Trigger.Evolves cfg) ts vs := by
  induction h generalizing vs with
  | nil => exact k
  | cons h _ ih =>
    cases k with
    | cons k ks => exact .cons (h.trans k) (ih ks)

theorem State.Kept.trans {s t u : State} (h : s.Kept t) (k : t.Kept u) : s.Kept u := by
  refine ⟨k.cfg.trans h.cfg, k.tselect.trans h.tselect, k.scontext.trans h.scontext, k.mcontext.trans h.mcontext, ?_, ?_⟩
  · intro n
    obtain ⟨a, b⟩ := h.tcontrol n
    obtain ⟨c, d⟩ := k.tcontrol (h.cfg ▸ n)
    exact ⟨c.trans a, d.trans b⟩
  · exact evolves_trans h.trigs (h.cfg ▸ k.trigs)

/-- A state that differs in none of these fields. -/
theorem State.Kept.of_eq {s t : State} (c : t.cfg = s.cfg) (l : t.tselect = s.tselect) (sc : t.scontext = s.scontext)
    (mc : t.mcontext = s.mcontext) (te : t.mte = s.mte) (tp : t.mpte = s.mpte) (ts : t.trigs = s.trigs) : s.Kept t :=
  ⟨c, l, sc, mc, fun _ => ⟨te, tp⟩, ts ▸ evolves_refl _ _⟩

/-- A state that differs in the triggers only, by a function that evolves each. -/
theorem evolves_mapIdx (cfg : Config) (ts : List Trigger) (f : Nat → Trigger → Trigger)
    (h : ∀ (i : Nat) (t : Trigger), t.Evolves cfg (f i t)) : List.Forall₂ (Trigger.Evolves cfg) ts (ts.mapIdx f) := by
  induction ts generalizing f with
  | nil => exact .nil
  | cons t ts ih =>
    rw [List.mapIdx_cons]
    exact .cons (h 0 t) (ih _ fun i t => h (i + 1) t)

/-! ## The status bits -/

theorem and_low_eq (n : Nat) (c : BitVec 14) :
    c &&& BitVec.ofNat 14 (2 ^ n - 1) = c ↔ (n < 14 → c.toNat < 2 ^ n) := by
  have hc := c.isLt
  by_cases hb : n < 14
  · have hp : 2 ^ n ≤ 2 ^ 13 := Nat.pow_le_pow_right (by decide) (by omega)
    have hm : (2 ^ n - 1) % 2 ^ 14 = 2 ^ n - 1 := Nat.mod_eq_of_lt (by omega)
    rw [← BitVec.toNat_inj, BitVec.toNat_and, BitVec.toNat_ofNat, hm, Nat.and_two_pow_sub_one_eq_mod]
    have := Nat.mod_lt c.toNat (Nat.two_pow_pos n)
    exact ⟨fun h _ => by omega, fun h => Nat.mod_eq_of_lt (h hb)⟩
  · obtain ⟨k, rfl⟩ : ∃ k, n = 14 + k := ⟨n - 14, by omega⟩
    have hm : (2 ^ (14 + k) - 1) % 2 ^ 14 = 2 ^ 14 - 1 := by
      rw [Nat.pow_add]
      have := Nat.two_pow_pos k
      generalize 2 ^ k = q at *
      omega
    rw [← BitVec.toNat_inj, BitVec.toNat_and, BitVec.toNat_ofNat, hm, Nat.and_two_pow_sub_one_eq_mod]
    exact ⟨fun _ h => absurd h hb, fun _ => Nat.mod_eq_of_lt hc⟩

theorem toNat_pred (c : BitVec 14) (k : 1 < c.toNat) : (c - 1).toNat = c.toNat - 1 := by
  bv_omega

/-- The decrement stays within the implemented bits. -/
theorem and_low_pred (n : Nat) (c : BitVec 14) (h : c &&& BitVec.ofNat 14 (2 ^ n - 1) = c) (k : 1 < c.toNat) :
    (c - 1) &&& BitVec.ofNat 14 (2 ^ n - 1) = c - 1 := by
  rw [and_low_eq, toNat_pred c k]
  intro hb
  have := (and_low_eq n c).mp h hb
  omega

/-! ### What hardware changes of a view leaves `tdata2` and `tdata3` legal -/

theorem View.typ_of_shape {v w : View} (h : w.shape = v.shape) : w.typ = v.typ := by
  rw [← View.shape_typ w, h, View.shape_typ]

/-- What `tdata2` can hold at most, and must hold, depends on the shape of the view. -/
theorem tdata2Base_shape (cfg : Config) (p : TrigImpl) (v : View) (x : Word) :
    tdata2Base cfg p v.shape x = tdata2Base cfg p v x ∧ mustHold cfg p v.shape x = mustHold cfg p v x := by
  cases v <;> exact ⟨rfl, rfl⟩

/-- A view of the same shape, disabled wherever the old one was, has the same legal values of `tdata2`, or more. -/
theorem tdata2Legal_of_shape (cfg : Config) (p : TrigImpl) (dm : Bool) {v w : View} (x : Word) (hs : w.shape = v.shape)
    (hl : v.fieldsLegal cfg p dm = true) (fg : v.isDisabledForm p = true → w.isDisabledForm p = true)
    (h : tdata2Legal cfg p v x = true) : tdata2Legal cfg p w x = true := by
  by_cases hw : w.isDisabledForm p = true
  · rw [tdata2Legal, if_pos hw]
    exact tdata2Legal_forSome cfg p dm v x hl h
  · rw [tdata2Legal, if_neg fun e => hw (fg e)] at h
    rw [tdata2Legal, if_neg hw, ← (tdata2Base_shape cfg p w x).1, ← (tdata2Base_shape cfg p w x).2, hs,
      (tdata2Base_shape cfg p v x).1, (tdata2Base_shape cfg p v x).2]
    simpa only [excluded, View.shapeImage, hs] using h

/-- The same of `tdata3`. -/
theorem tdata3Legal_of_shape (cfg : Config) (p : TrigImpl) (dm : Bool) {v w : View} (t : Textra) (hs : w.shape = v.shape)
    (hl : v.fieldsLegal cfg p dm = true) (fg : v.isDisabledForm p = true → w.isDisabledForm p = true)
    (h : tdata3Legal cfg p v t = true) : tdata3Legal cfg p w t = true := by
  by_cases hw : w.isDisabledForm p = true
  · rw [tdata3Legal, if_pos hw]
    exact tdata3Legal_forSome cfg p dm v t hl h
  · rw [tdata3Legal, if_neg fun e => hw (fg e)] at h
    rw [tdata3Legal, if_neg hw, tdata3Base_congr cfg p w v t (View.typ_of_shape hs)]
    simpa only [excludedTdata3, View.shapeImage, hs] using h

/-- Firing keeps the shape of a view, -/
theorem View.fired_shape (p : TrigImpl) (time : FireTime) (un : Bool) (v : View) : (v.fired p time un).shape = v.shape := by
  cases v with
  | icount f => simp only [View.fired, View.shape, Icount.fired]; split <;> rfl
  | mcontrol f => rfl
  | itrigger f => rfl
  | etrigger f => rfl
  | mcontrol6 f => rfl
  | tmext f => rfl
  | disabled d => rfl

/-- and a disabled trigger disabled. -/
theorem View.fired_isDisabledForm (p : TrigImpl) (time : FireTime) (un : Bool) (v : View) (h : v.isDisabledForm p = true) :
    (v.fired p time un).isDisabledForm p = true := by
  cases v with
  | icount f =>
    revert h
    simp only [View.fired, Icount.fired]
    split <;> simp +contextual [View.isDisabledForm, View.typ, View.enablesClear, View.isNapot]
  | mcontrol f => exact h
  | itrigger f => exact h
  | etrigger f => exact h
  | mcontrol6 f => exact h
  | tmext f => exact h
  | disabled d => exact h

/-- Firing changes status bits, and the enables of an icount with hard-wired `count`. -/
theorem View.settings_fired (p : TrigImpl) (time : FireTime) (un : Bool) (v : View) :
    (v.fired p time un).settings = v.settings ∨
      (p.countHardwired = true ∧ (v.fired p time un).settings = v.settings.disarmed) := by
  cases v with
  | icount f =>
    by_cases h : p.countHardwired = true
    · exact .inr ⟨h, by simp [View.fired, Icount.fired, h, View.settings, View.disarmed]⟩
    · exact .inl (by simp [View.fired, Icount.fired, h, View.settings])
  | mcontrol f => exact .inl rfl
  | itrigger f => exact .inl rfl
  | etrigger f => exact .inl rfl
  | mcontrol6 f => exact .inl rfl
  | tmext f => exact .inl rfl
  | disabled d => exact .inl rfl

theorem evolves_view {cfg : Config} {t : Trigger} {v : View} (ty : v.typ = t.tdata1.typ)
    (li : (Tdata1.mk t.tdata1.dmode v).isLink = t.tdata1.isLink)
    (se : v.settings = t.tdata1.view.settings ∨ (t.impl.countHardwired = true ∧ v.settings = t.tdata1.view.settings.disarmed))
    (le : trigLegal cfg t = true → trigLegal cfg { t with tdata1 := { t.tdata1 with view := v } } = true) :
    t.Evolves cfg { t with tdata1 := { t.tdata1 with view := v } } :=
  ⟨rfl, rfl, rfl, rfl, rfl, ty, li, se, le⟩

/-! Firing keeps every hard-wired bit. -/

theorem Mcontrol.normal_fired (cfg : Config) (p : TrigImpl) (f : Mcontrol) (h : f.normal cfg p = f) :
    (f.fired p).normal cfg p = f.fired p := by
  cases f
  simp only [Mcontrol.normal, Mcontrol.fired, Mcontrol.mk.injEq] at h ⊢
  simp_all [or_imp]

theorem Mcontrol6.normal_fired (cfg : Config) (p : TrigImpl) (f : Mcontrol6) (time : FireTime) (un : Bool)
    (h : f.normal cfg p = f) : (f.fired p time un).normal cfg p = f.fired p time un := by
  cases f
  simp only [Mcontrol6.normal, Mcontrol6.fired, Mcontrol6.mk.injEq] at h ⊢
  simp_all

theorem Icount.normal_fired (cfg : Config) (p : TrigImpl) (f : Icount) (h : f.normal cfg p = f) :
    (f.fired p).normal cfg p = f.fired p := by
  cases f
  unfold Icount.fired
  simp only [Icount.normal, Icount.mk.injEq] at h ⊢
  by_cases hw : p.countHardwired = true
  · simp_all [or_imp]
  · simp_all [or_imp]

theorem Itrigger.normal_fired (cfg : Config) (p : TrigImpl) (f : Itrigger) (h : f.normal cfg p = f) :
    (f.fired p).normal cfg p = f.fired p := by
  cases f
  simp only [Itrigger.normal, Itrigger.fired, Itrigger.mk.injEq] at h ⊢
  simp_all [or_imp]

theorem Etrigger.normal_fired (cfg : Config) (p : TrigImpl) (f : Etrigger) (h : f.normal cfg p = f) :
    (f.fired p).normal cfg p = f.fired p := by
  cases f
  simp only [Etrigger.normal, Etrigger.fired, Etrigger.mk.injEq] at h ⊢
  simp_all [or_imp]

theorem Tmext.normal_fired (cfg : Config) (p : TrigImpl) (f : Tmext) (h : f.normal cfg p = f) :
    (f.fired p).normal cfg p = f.fired p := by
  cases f
  simp only [Tmext.normal, Tmext.fired, Tmext.mk.injEq] at h ⊢
  simp_all [or_imp]

/-- What firing and trap matching set keeps a trigger legal. -/
theorem fired_evolves (cfg : Config) (t : Trigger) (time : FireTime) (un : Bool) :
    t.Evolves cfg { t with tdata1 := { t.tdata1 with view := t.tdata1.view.fired t.impl time un } } := by
  obtain ⟨p, ⟨dm, v⟩, t2, t3, eh, sx⟩ := t
  apply evolves_view
  · cases v <;> simp [View.fired, View.typ, Tdata1.typ]
  · cases v <;> simp [View.fired, Tdata1.isLink, Mcontrol.fired, Mcontrol6.fired]
  · exact View.settings_fired p time un v
  · intro h
    simp only [trigLegal, Bool.and_eq_true, beq_iff_eq] at h ⊢
    obtain ⟨⟨⟨hn, hf⟩, h2⟩, h3⟩ := h
    simp only [Tdata1.normal, Tdata1.mk.injEq] at hn
    obtain ⟨hd, hn⟩ := hn
    have sup := hf
    cases v with
    | mcontrol f =>
      simp only [View.normal, View.mcontrol.injEq] at hn
      refine ⟨⟨⟨?_, ?_⟩, ?_⟩, ?_⟩
      · simp [Tdata1.normal, View.fired, View.normal, Mcontrol.normal_fired cfg p f hn, hd]
      · simpa [Tdata1.fieldsLegal, View.fieldsLegal, View.fired, Mcontrol.fired] using hf
      · exact tdata2Legal_of_shape cfg p dm t2 (View.fired_shape p time un _) hf (View.fired_isDisabledForm p time un _) h2
      · exact tdata3Legal_of_shape cfg p dm t3 (View.fired_shape p time un _) hf (View.fired_isDisabledForm p time un _) h3
    | icount f =>
      simp only [View.normal, View.icount.injEq] at hn
      refine ⟨⟨⟨?_, ?_⟩, ?_⟩, ?_⟩
      · simp [Tdata1.normal, View.fired, View.normal, Icount.normal_fired cfg p f hn, hd]
      · simp only [View.fired]
        unfold Icount.fired
        split <;> simpa [Tdata1.fieldsLegal, View.fieldsLegal] using hf
      · exact tdata2Legal_of_shape cfg p dm t2 (View.fired_shape p time un _) hf (View.fired_isDisabledForm p time un _) h2
      · exact tdata3Legal_of_shape cfg p dm t3 (View.fired_shape p time un _) hf (View.fired_isDisabledForm p time un _) h3
    | itrigger f =>
      simp only [View.normal, View.itrigger.injEq] at hn
      refine ⟨⟨⟨?_, ?_⟩, ?_⟩, ?_⟩
      · simp [Tdata1.normal, View.fired, View.normal, Itrigger.normal_fired cfg p f hn, hd]
      · simpa [Tdata1.fieldsLegal, View.fieldsLegal, View.fired, Itrigger.fired] using hf
      · exact tdata2Legal_of_shape cfg p dm t2 (View.fired_shape p time un _) hf (View.fired_isDisabledForm p time un _) h2
      · exact tdata3Legal_of_shape cfg p dm t3 (View.fired_shape p time un _) hf (View.fired_isDisabledForm p time un _) h3
    | etrigger f =>
      simp only [View.normal, View.etrigger.injEq] at hn
      refine ⟨⟨⟨?_, ?_⟩, ?_⟩, ?_⟩
      · simp [Tdata1.normal, View.fired, View.normal, Etrigger.normal_fired cfg p f hn, hd]
      · simpa [Tdata1.fieldsLegal, View.fieldsLegal, View.fired, Etrigger.fired] using hf
      · exact tdata2Legal_of_shape cfg p dm t2 (View.fired_shape p time un _) hf (View.fired_isDisabledForm p time un _) h2
      · exact tdata3Legal_of_shape cfg p dm t3 (View.fired_shape p time un _) hf (View.fired_isDisabledForm p time un _) h3
    | mcontrol6 f =>
      simp only [View.normal, View.mcontrol6.injEq] at hn
      refine ⟨⟨⟨?_, ?_⟩, ?_⟩, ?_⟩
      · simp [Tdata1.normal, View.fired, View.normal, Mcontrol6.normal_fired cfg p f time un hn, hd]
      · simpa [Tdata1.fieldsLegal, View.fieldsLegal, View.fired, Mcontrol6.fired] using hf
      · exact tdata2Legal_of_shape cfg p dm t2 (View.fired_shape p time un _) hf (View.fired_isDisabledForm p time un _) h2
      · exact tdata3Legal_of_shape cfg p dm t3 (View.fired_shape p time un _) hf (View.fired_isDisabledForm p time un _) h3
    | tmext f =>
      simp only [View.normal, View.tmext.injEq] at hn
      refine ⟨⟨⟨?_, ?_⟩, ?_⟩, ?_⟩
      · simp [Tdata1.normal, View.fired, View.normal, Tmext.normal_fired cfg p f hn, hd]
      · simpa [Tdata1.fieldsLegal, View.fieldsLegal, View.fired, Tmext.fired] using hf
      · exact tdata2Legal_of_shape cfg p dm t2 (View.fired_shape p time un _) hf (View.fired_isDisabledForm p time un _) h2
      · exact tdata3Legal_of_shape cfg p dm t3 (View.fired_shape p time un _) hf (View.fired_isDisabledForm p time un _) h3
    | disabled d =>
      simp only [View.fired]
      exact ⟨⟨⟨by simp [Tdata1.normal, hn, hd], hf⟩, h2⟩, h3⟩

theorem Trigger.fired_evolves (cfg : Config) (t : Trigger) (d : Due) : t.Evolves cfg (t.fired d) := by
  unfold Trigger.fired
  split
  · exact Sys2Proof.Machine.fired_evolves cfg t _ _
  · exact .refl cfg t

theorem Trigger.hitByTrap_evolves (cfg : Config) (t : Trigger) : t.Evolves cfg t.hitByTrap :=
  Sys2Proof.Machine.fired_evolves cfg t _ _

theorem Trigger.hitOnMatch_evolves (cfg : Config) (t : Trigger) : t.Evolves cfg t.hitOnMatch := by
  unfold Trigger.hitOnMatch
  split
  · next f e =>
    have h := Sys2Proof.Machine.fired_evolves cfg t .before false
    simpa only [e, View.fired] using h
  · exact .refl cfg t

/-- The held action is not a register. -/
theorem Trigger.held_evolves (cfg : Config) (t : Trigger) (b : Bool) : t.Evolves cfg { t with extHeld := b } :=
  ⟨rfl, rfl, rfl, rfl, rfl, rfl, rfl, .inl rfl, id⟩

theorem State.afterSignal_evolves (cfg : Config) (s : State) (sigs : List HostItem) (i : Nat) (t : Trigger) :
    t.Evolves cfg (s.afterSignal sigs i t) := by
  unfold State.afterSignal
  split <;> first | exact .refl cfg t | exact t.held_evolves cfg _

/-- What counting changes of a type 3 trigger keeps it legal. -/
theorem count_evolves (cfg : Config) (t : Trigger) (f g : Icount) (e : t.tdata1.view = .icount f)
    (n : f.normal cfg t.impl = f → g.normal cfg t.impl = g) (en : (View.icount g).enablesClear = (View.icount f).enablesClear)
    (ac : g.action = f.action) (se : (View.icount g).settings = (View.icount f).settings) :
    t.Evolves cfg { t with tdata1 := { t.tdata1 with view := .icount g } } := by
  obtain ⟨p, ⟨dm, v⟩, t2, t3, eh, sx⟩ := t
  simp only at e
  subst e
  apply evolves_view
  · rfl
  · rfl
  · exact .inl se
  · intro h
    simp only [trigLegal, Bool.and_eq_true, beq_iff_eq] at h ⊢
    obtain ⟨⟨⟨hn, hf⟩, h2⟩, h3⟩ := h
    simp only [Tdata1.normal, Tdata1.mk.injEq, View.normal, View.icount.injEq] at hn
    have sh : (View.icount g).shape = (View.icount f).shape := by simp only [View.shape, ac]
    have di : (View.icount f).isDisabledForm p = true → (View.icount g).isDisabledForm p = true := by
      simp [View.isDisabledForm, View.typ, en, View.isNapot]
    refine ⟨⟨⟨?_, ?_⟩, ?_⟩, ?_⟩
    · simp [Tdata1.normal, View.normal, n hn.2, hn.1]
    · simpa [Tdata1.fieldsLegal, View.fieldsLegal, ac] using hf
    · exact tdata2Legal_of_shape cfg p dm t2 sh hf di h2
    · exact tdata3Legal_of_shape cfg p dm t3 sh hf di h3

theorem legalCount_counted (cfg : Config) (p : TrigImpl) (f : Icount) (h : f.normal cfg p = f) :
    (f.counted p).normal cfg p = f.counted p := by
  have hc : legalCount p f.count = f.count := congrArg Icount.count h
  unfold Icount.counted
  split
  · next k =>
    have : legalCount p (f.count - 1) = f.count - 1 := by
      unfold legalCount at *
      split at hc
      · next hw =>
        rw [← hc] at k
        exact absurd k (by decide)
      · next hw =>
        rw [if_neg hw]
        exact and_low_pred _ _ hc k
    cases f
    simp only [Icount.normal, Icount.mk.injEq] at h ⊢
    simp_all
  · split
    · next k =>
      have : legalCount p (if p.countHardwired then 1 else 0) = if p.countHardwired then 1 else 0 := by
        unfold legalCount
        split <;> simp
      cases f
      simp only [Icount.normal, Icount.mk.injEq] at h ⊢
      simp_all
    · exact h

theorem Trigger.countedFrom_evolves (cfg : Config) (was t : Trigger) (w free : Bool) :
    t.Evolves cfg (was.countedFrom t w free) := by
  unfold Trigger.countedFrom
  split
  · next f e =>
    split
    · refine count_evolves cfg t f _ e ?_ ?_ ?_ ?_
      · intro h
        unfold Icount.selfWritten
        split
        · cases f
          simp only [Icount.normal, Icount.mk.injEq] at h ⊢
          simp_all
        · exact h
      · unfold Icount.selfWritten
        split <;> rfl
      · unfold Icount.selfWritten
        split <;> rfl
      · unfold Icount.selfWritten
        split <;> rfl
    · refine count_evolves cfg t f _ e (legalCount_counted cfg t.impl f) ?_ ?_ ?_
      all_goals
        unfold Icount.counted
        split
        · rfl
        · split <;> rfl
  all_goals exact .refl cfg t

theorem State.countedAt_evolves (cfg : Config) (was at_ : State) (md : Mode) (w : Option Nat) (i : Nat) (t : Trigger) :
    t.Evolves cfg (State.countedAt was at_ md w i t) := by
  unfold State.countedAt
  split
  · split
    · exact Trigger.countedFrom_evolves cfg _ t _ _
    · exact .refl cfg t
  · exact .refl cfg t

theorem countedTrigs_evolves (cfg : Config) (was at_ : State) (now : List Trigger) (md : Mode) (w : Option Nat) :
    List.Forall₂ (Trigger.Evolves cfg) now (State.countedTrigs was at_ now md w) :=
  evolves_mapIdx cfg now _ fun i t => State.countedAt_evolves cfg was at_ md w i t

/-! ## The operations -/

/-- An operation that changes none of the Trigger Module's registers. -/
theorem State.Kept.setTrigs (s : State) (ts : List Trigger) (h : List.Forall₂ (Trigger.Evolves s.cfg) s.trigs ts) :
    s.Kept (s.setTrigs ts) :=
  ⟨rfl, rfl, rfl, rfl, fun _ => ⟨rfl, rfl⟩, h⟩

theorem State.modifyTrig_kept (s : State) (i : Nat) (f : Trigger → Trigger) (h : ∀ t : Trigger, t.Evolves s.cfg (f t)) :
    s.Kept (s.modifyTrig i f) := by
  refine .setTrigs s _ (evolves_mapIdx _ _ _ fun j t => ?_)
  split
  · exact h t
  · exact .refl _ t

theorem State.fireAll_kept (s : State) (ds : List Due) : s.Kept (s.fireAll ds) := by
  unfold State.fireAll
  induction ds generalizing s with
  | nil => exact .refl s
  | cons d ds ih => exact (s.modifyTrig_kept _ _ fun t => t.fired_evolves _ d).trans (ih _)

theorem State.takeTrap_kept (s : State) (h : Handler) (b n : Bool) (c : Nat) (v : Word) : s.Kept (s.takeTrap h b n c v) := by
  refine ⟨by simp, by simp, by simp, by simp, fun e => ?_, ?_⟩
  · obtain ⟨a, b⟩ := s.takeTrap_tcontrol h b n c v
    simp [a, b, e]
  · rw [State.takeTrap_trigs]
    refine evolves_trans ?_ (evolves_mapIdx _ _ _ fun i t => ?_)
    · simp only [State.countTrap, State.setTrigs_trigs, State.afterHostTrap_trigs]
      exact countedTrigs_evolves s.cfg _ _ _ _ _
    · split
      · exact t.hitByTrap_evolves _
      · exact .refl _ t

theorem State.raise_kept (s : State) (c : Nat) (v : Word) : s.Kept (s.raise c v) := by
  unfold State.raise
  split
  · exact .of_eq rfl rfl rfl rfl rfl rfl rfl
  · exact s.takeTrap_kept _ _ _ _ _

theorem State.enterDebug_kept (s : State) : s.Kept s.enterDebug := by
  refine .of_eq ?_ ?_ ?_ ?_ ?_ ?_ ?_ <;> simp

theorem State.emit_kept (s : State) (o : List Signal) : s.Kept (s.emit o) := .of_eq rfl rfl rfl rfl rfl rfl rfl

theorem State.endItem_kept (s : State) : s.Kept s.endItem := .of_eq rfl rfl rfl rfl rfl rfl rfl

theorem State.takeBreakpoint_kept (s : State) (ds : List Due) : s.Kept (s.takeBreakpoint ds) :=
  (s.emit_kept _).trans (State.takeTrap_kept _ _ _ _ _ _)

theorem State.returnFromTrap_kept (s : State) : s.Kept s.returnFromTrap := by
  unfold State.returnFromTrap
  split
  · next e => exact ⟨rfl, rfl, rfl, rfl, fun n => by simp [e] at n, evolves_refl _ _⟩
  · exact .refl s

/-- An instruction that retires, from the state with its effects. -/
theorem State.retire_kept (was s : State) (w : Option Nat) : s.Kept (State.retire was s w) :=
  ⟨rfl, rfl, rfl, rfl, fun _ => ⟨rfl, rfl⟩, countedTrigs_evolves _ _ _ _ _ _⟩

theorem State.markMatches_kept (s : State) : s.Kept s.markMatches := by
  unfold State.markMatches
  split
  · refine .setTrigs s _ (evolves_mapIdx _ _ _ fun i t => ?_)
    split
    · exact t.hitOnMatch_evolves _
    · exact .refl _ t
  · exact .refl s

theorem State.writeRegs_kept (s : State) (ws : List (Reg × Word)) : s.Kept (s.writeRegs ws) := by
  refine .of_eq ?_ ?_ ?_ ?_ ?_ ?_ ?_ <;> simp

end Sys2Proof.Machine
end

