-- ==== Sys2Proof/Laws/Csr.lean ====
section
/-! SUPPORT. What a CSR write leaves alone (spec/10_state.md R23), and the two outcomes of a CSR instruction. -/

namespace Sys2Proof.Machine

/-! ### Writes to the `tdata` registers -/

@[simp] theorem State.writeTdata1_cfg (s : State) (v : Word) : (s.writeTdata1 v).1.cfg = s.cfg := by
  unfold State.writeTdata1; split
  · rfl
  · split <;> rfl
@[simp] theorem State.writeTdata1_tselect (s : State) (v : Word) : (s.writeTdata1 v).1.tselect = s.tselect := by
  unfold State.writeTdata1; split
  · rfl
  · split <;> rfl
@[simp] theorem State.writeTdata1_mte (s : State) (v : Word) : (s.writeTdata1 v).1.mte = s.mte := by
  unfold State.writeTdata1; split
  · rfl
  · split <;> rfl
@[simp] theorem State.writeTdata1_mpte (s : State) (v : Word) : (s.writeTdata1 v).1.mpte = s.mpte := by
  unfold State.writeTdata1; split
  · rfl
  · split <;> rfl
@[simp] theorem State.writeTdata1_scontext (s : State) (v : Word) : (s.writeTdata1 v).1.scontext = s.scontext := by
  unfold State.writeTdata1; split
  · rfl
  · split <;> rfl
@[simp] theorem State.writeTdata1_mcontext (s : State) (v : Word) : (s.writeTdata1 v).1.mcontext = s.mcontext := by
  unfold State.writeTdata1; split
  · rfl
  · split <;> rfl
@[simp] theorem State.writeTdata1_matched (s : State) (v : Word) : (s.writeTdata1 v).1.matched = s.matched := by
  unfold State.writeTdata1; split
  · rfl
  · split <;> rfl
@[simp] theorem State.writeTdata1_dueAfter (s : State) (v : Word) : (s.writeTdata1 v).1.dueAfter = s.dueAfter := by
  unfold State.writeTdata1; split
  · rfl
  · split <;> rfl
@[simp] theorem State.writeTdata1_deferred (s : State) (v : Word) : (s.writeTdata1 v).1.deferred = s.deferred := by
  unfold State.writeTdata1; split
  · rfl
  · split <;> rfl
@[simp] theorem State.writeTdata1_outbox (s : State) (v : Word) : (s.writeTdata1 v).1.outbox = s.outbox := by
  unfold State.writeTdata1; split
  · rfl
  · split <;> rfl
@[simp] theorem State.writeTdata1_x (s : State) (v : Word) : (s.writeTdata1 v).1.x = s.x := by
  unfold State.writeTdata1; split
  · rfl
  · split <;> rfl
@[simp] theorem State.writeTdata1_pc (s : State) (v : Word) : (s.writeTdata1 v).1.pc = s.pc := by
  unfold State.writeTdata1; split
  · rfl
  · split <;> rfl
@[simp] theorem State.writeTdata1_mode (s : State) (v : Word) : (s.writeTdata1 v).1.mode = s.mode := by
  unfold State.writeTdata1; split
  · rfl
  · split <;> rfl
@[simp] theorem State.writeTdata1_host (s : State) (v : Word) : (s.writeTdata1 v).1.host = s.host := by
  unfold State.writeTdata1; split
  · rfl
  · split <;> rfl
@[simp] theorem State.writeTdata1_trapM (s : State) (v : Word) : (s.writeTdata1 v).1.trapM = s.trapM := by
  unfold State.writeTdata1; split
  · rfl
  · split <;> rfl
@[simp] theorem State.writeTdata1_trapS (s : State) (v : Word) : (s.writeTdata1 v).1.trapS = s.trapS := by
  unfold State.writeTdata1; split
  · rfl
  · split <;> rfl
@[simp] theorem State.writeTdata1_trapVS (s : State) (v : Word) : (s.writeTdata1 v).1.trapVS = s.trapVS := by
  unfold State.writeTdata1; split
  · rfl
  · split <;> rfl
@[simp] theorem State.writeTdata1_dpc (s : State) (v : Word) : (s.writeTdata1 v).1.dpc = s.dpc := by
  unfold State.writeTdata1; split
  · rfl
  · split <;> rfl
@[simp] theorem State.writeTdata1_feed (s : State) (v : Word) : (s.writeTdata1 v).1.feed = s.feed := by
  unfold State.writeTdata1; split
  · rfl
  · split <;> rfl
@[simp] theorem State.writeTdata1_draws (s : State) (v : Word) : (s.writeTdata1 v).1.draws = s.draws := by
  unfold State.writeTdata1; split
  · rfl
  · split <;> rfl
@[simp] theorem State.writeTdata2_cfg (s : State) (v : Word) : (s.writeTdata2 v).cfg = s.cfg := by
  unfold State.writeTdata2; split
  · rfl
  · split <;> rfl
@[simp] theorem State.writeTdata2_tselect (s : State) (v : Word) : (s.writeTdata2 v).tselect = s.tselect := by
  unfold State.writeTdata2; split
  · rfl
  · split <;> rfl
@[simp] theorem State.writeTdata2_mte (s : State) (v : Word) : (s.writeTdata2 v).mte = s.mte := by
  unfold State.writeTdata2; split
  · rfl
  · split <;> rfl
@[simp] theorem State.writeTdata2_mpte (s : State) (v : Word) : (s.writeTdata2 v).mpte = s.mpte := by
  unfold State.writeTdata2; split
  · rfl
  · split <;> rfl
@[simp] theorem State.writeTdata2_scontext (s : State) (v : Word) : (s.writeTdata2 v).scontext = s.scontext := by
  unfold State.writeTdata2; split
  · rfl
  · split <;> rfl
@[simp] theorem State.writeTdata2_mcontext (s : State) (v : Word) : (s.writeTdata2 v).mcontext = s.mcontext := by
  unfold State.writeTdata2; split
  · rfl
  · split <;> rfl
@[simp] theorem State.writeTdata2_waiting (s : State) (v : Word) : (s.writeTdata2 v).waiting = s.waiting := by
  unfold State.writeTdata2; split
  · rfl
  · split <;> rfl
@[simp] theorem State.writeTdata2_matched (s : State) (v : Word) : (s.writeTdata2 v).matched = s.matched := by
  unfold State.writeTdata2; split
  · rfl
  · split <;> rfl
@[simp] theorem State.writeTdata2_dueAfter (s : State) (v : Word) : (s.writeTdata2 v).dueAfter = s.dueAfter := by
  unfold State.writeTdata2; split
  · rfl
  · split <;> rfl
@[simp] theorem State.writeTdata2_deferred (s : State) (v : Word) : (s.writeTdata2 v).deferred = s.deferred := by
  unfold State.writeTdata2; split
  · rfl
  · split <;> rfl
@[simp] theorem State.writeTdata2_outbox (s : State) (v : Word) : (s.writeTdata2 v).outbox = s.outbox := by
  unfold State.writeTdata2; split
  · rfl
  · split <;> rfl
@[simp] theorem State.writeTdata2_x (s : State) (v : Word) : (s.writeTdata2 v).x = s.x := by
  unfold State.writeTdata2; split
  · rfl
  · split <;> rfl
@[simp] theorem State.writeTdata2_pc (s : State) (v : Word) : (s.writeTdata2 v).pc = s.pc := by
  unfold State.writeTdata2; split
  · rfl
  · split <;> rfl
@[simp] theorem State.writeTdata2_mode (s : State) (v : Word) : (s.writeTdata2 v).mode = s.mode := by
  unfold State.writeTdata2; split
  · rfl
  · split <;> rfl
@[simp] theorem State.writeTdata2_host (s : State) (v : Word) : (s.writeTdata2 v).host = s.host := by
  unfold State.writeTdata2; split
  · rfl
  · split <;> rfl
@[simp] theorem State.writeTdata2_trapM (s : State) (v : Word) : (s.writeTdata2 v).trapM = s.trapM := by
  unfold State.writeTdata2; split
  · rfl
  · split <;> rfl
@[simp] theorem State.writeTdata2_trapS (s : State) (v : Word) : (s.writeTdata2 v).trapS = s.trapS := by
  unfold State.writeTdata2; split
  · rfl
  · split <;> rfl
@[simp] theorem State.writeTdata2_trapVS (s : State) (v : Word) : (s.writeTdata2 v).trapVS = s.trapVS := by
  unfold State.writeTdata2; split
  · rfl
  · split <;> rfl
@[simp] theorem State.writeTdata2_dpc (s : State) (v : Word) : (s.writeTdata2 v).dpc = s.dpc := by
  unfold State.writeTdata2; split
  · rfl
  · split <;> rfl
@[simp] theorem State.writeTdata2_feed (s : State) (v : Word) : (s.writeTdata2 v).feed = s.feed := by
  unfold State.writeTdata2; split
  · rfl
  · split <;> rfl
@[simp] theorem State.writeTdata2_draws (s : State) (v : Word) : (s.writeTdata2 v).draws = s.draws := by
  unfold State.writeTdata2; split
  · rfl
  · split <;> rfl
@[simp] theorem State.writeTdata3_cfg (s : State) (v : Word) : (s.writeTdata3 v).cfg = s.cfg := by
  unfold State.writeTdata3; split
  · rfl
  · split <;> rfl
@[simp] theorem State.writeTdata3_tselect (s : State) (v : Word) : (s.writeTdata3 v).tselect = s.tselect := by
  unfold State.writeTdata3; split
  · rfl
  · split <;> rfl
@[simp] theorem State.writeTdata3_mte (s : State) (v : Word) : (s.writeTdata3 v).mte = s.mte := by
  unfold State.writeTdata3; split
  · rfl
  · split <;> rfl
@[simp] theorem State.writeTdata3_mpte (s : State) (v : Word) : (s.writeTdata3 v).mpte = s.mpte := by
  unfold State.writeTdata3; split
  · rfl
  · split <;> rfl
@[simp] theorem State.writeTdata3_scontext (s : State) (v : Word) : (s.writeTdata3 v).scontext = s.scontext := by
  unfold State.writeTdata3; split
  · rfl
  · split <;> rfl
@[simp] theorem State.writeTdata3_mcontext (s : State) (v : Word) : (s.writeTdata3 v).mcontext = s.mcontext := by
  unfold State.writeTdata3; split
  · rfl
  · split <;> rfl
@[simp] theorem State.writeTdata3_waiting (s : State) (v : Word) : (s.writeTdata3 v).waiting = s.waiting := by
  unfold State.writeTdata3; split
  · rfl
  · split <;> rfl
@[simp] theorem State.writeTdata3_matched (s : State) (v : Word) : (s.writeTdata3 v).matched = s.matched := by
  unfold State.writeTdata3; split
  · rfl
  · split <;> rfl
@[simp] theorem State.writeTdata3_dueAfter (s : State) (v : Word) : (s.writeTdata3 v).dueAfter = s.dueAfter := by
  unfold State.writeTdata3; split
  · rfl
  · split <;> rfl
@[simp] theorem State.writeTdata3_deferred (s : State) (v : Word) : (s.writeTdata3 v).deferred = s.deferred := by
  unfold State.writeTdata3; split
  · rfl
  · split <;> rfl
@[simp] theorem State.writeTdata3_outbox (s : State) (v : Word) : (s.writeTdata3 v).outbox = s.outbox := by
  unfold State.writeTdata3; split
  · rfl
  · split <;> rfl
@[simp] theorem State.writeTdata3_x (s : State) (v : Word) : (s.writeTdata3 v).x = s.x := by
  unfold State.writeTdata3; split
  · rfl
  · split <;> rfl
@[simp] theorem State.writeTdata3_pc (s : State) (v : Word) : (s.writeTdata3 v).pc = s.pc := by
  unfold State.writeTdata3; split
  · rfl
  · split <;> rfl
@[simp] theorem State.writeTdata3_mode (s : State) (v : Word) : (s.writeTdata3 v).mode = s.mode := by
  unfold State.writeTdata3; split
  · rfl
  · split <;> rfl
@[simp] theorem State.writeTdata3_host (s : State) (v : Word) : (s.writeTdata3 v).host = s.host := by
  unfold State.writeTdata3; split
  · rfl
  · split <;> rfl
@[simp] theorem State.writeTdata3_trapM (s : State) (v : Word) : (s.writeTdata3 v).trapM = s.trapM := by
  unfold State.writeTdata3; split
  · rfl
  · split <;> rfl
@[simp] theorem State.writeTdata3_trapS (s : State) (v : Word) : (s.writeTdata3 v).trapS = s.trapS := by
  unfold State.writeTdata3; split
  · rfl
  · split <;> rfl
@[simp] theorem State.writeTdata3_trapVS (s : State) (v : Word) : (s.writeTdata3 v).trapVS = s.trapVS := by
  unfold State.writeTdata3; split
  · rfl
  · split <;> rfl
@[simp] theorem State.writeTdata3_dpc (s : State) (v : Word) : (s.writeTdata3 v).dpc = s.dpc := by
  unfold State.writeTdata3; split
  · rfl
  · split <;> rfl
@[simp] theorem State.writeTdata3_feed (s : State) (v : Word) : (s.writeTdata3 v).feed = s.feed := by
  unfold State.writeTdata3; split
  · rfl
  · split <;> rfl
@[simp] theorem State.writeTdata3_draws (s : State) (v : Word) : (s.writeTdata3 v).draws = s.draws := by
  unfold State.writeTdata3; split
  · rfl
  · split <;> rfl

/-! ### Any write -/

@[simp] theorem State.writeCsr_cfg (s : State) (c : TmCsr) (v : Word) : (s.writeCsr c v).1.cfg = s.cfg := by
  cases c <;> simp [State.writeCsr]
@[simp] theorem State.writeCsr_matched (s : State) (c : TmCsr) (v : Word) : (s.writeCsr c v).1.matched = s.matched := by
  cases c <;> simp [State.writeCsr]
@[simp] theorem State.writeCsr_dueAfter (s : State) (c : TmCsr) (v : Word) : (s.writeCsr c v).1.dueAfter = s.dueAfter := by
  cases c <;> simp [State.writeCsr]
@[simp] theorem State.writeCsr_deferred (s : State) (c : TmCsr) (v : Word) : (s.writeCsr c v).1.deferred = s.deferred := by
  cases c <;> simp [State.writeCsr]
@[simp] theorem State.writeCsr_outbox (s : State) (c : TmCsr) (v : Word) : (s.writeCsr c v).1.outbox = s.outbox := by
  cases c <;> simp [State.writeCsr]
@[simp] theorem State.writeCsr_x (s : State) (c : TmCsr) (v : Word) : (s.writeCsr c v).1.x = s.x := by
  cases c <;> simp [State.writeCsr]
@[simp] theorem State.writeCsr_pc (s : State) (c : TmCsr) (v : Word) : (s.writeCsr c v).1.pc = s.pc := by
  cases c <;> simp [State.writeCsr]
@[simp] theorem State.writeCsr_mode (s : State) (c : TmCsr) (v : Word) : (s.writeCsr c v).1.mode = s.mode := by
  cases c <;> simp [State.writeCsr]
@[simp] theorem State.writeCsr_host (s : State) (c : TmCsr) (v : Word) : (s.writeCsr c v).1.host = s.host := by
  cases c <;> simp [State.writeCsr]
@[simp] theorem State.writeCsr_trapM (s : State) (c : TmCsr) (v : Word) : (s.writeCsr c v).1.trapM = s.trapM := by
  cases c <;> simp [State.writeCsr]
@[simp] theorem State.writeCsr_trapS (s : State) (c : TmCsr) (v : Word) : (s.writeCsr c v).1.trapS = s.trapS := by
  cases c <;> simp [State.writeCsr]
@[simp] theorem State.writeCsr_trapVS (s : State) (c : TmCsr) (v : Word) : (s.writeCsr c v).1.trapVS = s.trapVS := by
  cases c <;> simp [State.writeCsr]
@[simp] theorem State.writeCsr_dpc (s : State) (c : TmCsr) (v : Word) : (s.writeCsr c v).1.dpc = s.dpc := by
  cases c <;> simp [State.writeCsr]
@[simp] theorem State.writeCsr_feed (s : State) (c : TmCsr) (v : Word) : (s.writeCsr c v).1.feed = s.feed := by
  cases c <;> simp [State.writeCsr]
@[simp] theorem State.writeCsr_draws (s : State) (c : TmCsr) (v : Word) : (s.writeCsr c v).1.draws = s.draws := by
  cases c <;> simp [State.writeCsr]
@[simp] theorem State.csrStore_cfg (s : State) (a : CsrAddr) (b : Bool) (v : Word) : (s.csrStore a b v).1.cfg = s.cfg := by
  unfold State.csrStore; split
  · split <;> simp
  · rfl
@[simp] theorem State.csrStore_matched (s : State) (a : CsrAddr) (b : Bool) (v : Word) : (s.csrStore a b v).1.matched = s.matched := by
  unfold State.csrStore; split
  · split <;> simp
  · rfl
@[simp] theorem State.csrStore_dueAfter (s : State) (a : CsrAddr) (b : Bool) (v : Word) : (s.csrStore a b v).1.dueAfter = s.dueAfter := by
  unfold State.csrStore; split
  · split <;> simp
  · rfl
@[simp] theorem State.csrStore_deferred (s : State) (a : CsrAddr) (b : Bool) (v : Word) : (s.csrStore a b v).1.deferred = s.deferred := by
  unfold State.csrStore; split
  · split <;> simp
  · rfl
@[simp] theorem State.csrStore_outbox (s : State) (a : CsrAddr) (b : Bool) (v : Word) : (s.csrStore a b v).1.outbox = s.outbox := by
  unfold State.csrStore; split
  · split <;> simp
  · rfl
@[simp] theorem State.csrStore_x (s : State) (a : CsrAddr) (b : Bool) (v : Word) : (s.csrStore a b v).1.x = s.x := by
  unfold State.csrStore; split
  · split <;> simp
  · rfl
@[simp] theorem State.csrStore_pc (s : State) (a : CsrAddr) (b : Bool) (v : Word) : (s.csrStore a b v).1.pc = s.pc := by
  unfold State.csrStore; split
  · split <;> simp
  · rfl
@[simp] theorem State.csrStore_mode (s : State) (a : CsrAddr) (b : Bool) (v : Word) : (s.csrStore a b v).1.mode = s.mode := by
  unfold State.csrStore; split
  · split <;> simp
  · rfl
@[simp] theorem State.csrStore_host (s : State) (a : CsrAddr) (b : Bool) (v : Word) : (s.csrStore a b v).1.host = s.host := by
  unfold State.csrStore; split
  · split <;> simp
  · rfl
@[simp] theorem State.csrStore_trapM (s : State) (a : CsrAddr) (b : Bool) (v : Word) : (s.csrStore a b v).1.trapM = s.trapM := by
  unfold State.csrStore; split
  · split <;> simp
  · rfl
@[simp] theorem State.csrStore_trapS (s : State) (a : CsrAddr) (b : Bool) (v : Word) : (s.csrStore a b v).1.trapS = s.trapS := by
  unfold State.csrStore; split
  · split <;> simp
  · rfl
@[simp] theorem State.csrStore_trapVS (s : State) (a : CsrAddr) (b : Bool) (v : Word) : (s.csrStore a b v).1.trapVS = s.trapVS := by
  unfold State.csrStore; split
  · split <;> simp
  · rfl
@[simp] theorem State.csrStore_dpc (s : State) (a : CsrAddr) (b : Bool) (v : Word) : (s.csrStore a b v).1.dpc = s.dpc := by
  unfold State.csrStore; split
  · split <;> simp
  · rfl
@[simp] theorem State.csrStore_feed (s : State) (a : CsrAddr) (b : Bool) (v : Word) : (s.csrStore a b v).1.feed = s.feed := by
  unfold State.csrStore; split
  · split <;> simp
  · rfl
@[simp] theorem State.csrStore_draws (s : State) (a : CsrAddr) (b : Bool) (v : Word) : (s.csrStore a b v).1.draws = s.draws := by
  unfold State.csrStore; split
  · split <;> simp
  · rfl

/-! ### Length -/

@[simp] theorem State.writeCsr_length (s : State) (c : TmCsr) (v : Word) :
    (s.writeCsr c v).1.trigs.length = s.trigs.length := by
  cases c <;> simp only [State.writeCsr, State.setSelect_trigs, State.setTcontrol_trigs, State.setScontext_trigs,
    State.setMcontext_trigs]
  · unfold State.writeTdata1; split
    · rfl
    · split
      · simp [State.storeTdata1]
      · rfl
  · unfold State.writeTdata2; split
    · rfl
    · split
      · simp
      · rfl
  · unfold State.writeTdata3; split
    · rfl
    · split
      · simp
      · rfl

/-! ### What is read -/

theorem setWidth_trunc (v : BitVec 32) (x : Xlen) : x.trunc (v.setWidth 64) = v.setWidth 64 := by
  cases x
  · apply BitVec.eq_of_getLsbD_eq
    intro i h
    simp only [Xlen.trunc, BitVec.getLsbD_setWidth, BitVec.getLsbD_extractLsb']
    by_cases hi : i < 32
    · simp [hi]
    · simp [hi, BitVec.getLsbD_of_ge v i (by omega)]
  · rfl

theorem Trigger.tdata3Image_trunc (x : Xlen) (t : Trigger) : x.trunc (t.tdata3Image x) = t.tdata3Image x := by
  unfold Trigger.tdata3Image
  cases x
  · split <;> exact setWidth_trunc _ _
  · rfl

/-- What a read returns is an XLEN-bit value. -/
theorem State.readCsr_trunc (s : State) (c : TmCsr) : s.xlen.trunc (s.readCsr c) = s.readCsr c := by
  cases c <;> simp only [State.readCsr, Xlen.trunc_trunc]
  · split
    · cases s.xlen
      · exact setWidth_trunc _ _
      · rfl
    · cases s.xlen <;> rfl
  · split
    · exact Xlen.trunc_trunc _ _
    · cases s.xlen <;> rfl
  · split
    · exact Trigger.tdata3Image_trunc _ _
    · cases s.xlen <;> rfl
  · cases s.xlen
    · simp only [State.tinfo, Xlen.trunc]
      apply BitVec.eq_of_getLsbD_eq
      intro i h
      simp only [BitVec.getLsbD_setWidth, BitVec.getLsbD_extractLsb', BitVec.getLsbD_append]
      by_cases h1 : i < 16 <;> by_cases h2 : i - 16 < 8 <;> by_cases h3 : i - 16 - 8 < 8 <;> by_cases h4 : i < 32 <;>
        simp_all <;> omega
    · rfl
  · cases s.xlen
    · simp only [State.tcontrolImage, Xlen.trunc]
      cases s.mpte <;> cases s.mte <;> decide
    · rfl

theorem State.csrValue_trunc (s : State) (a : CsrAddr) : s.xlen.trunc (s.csrValue a) = s.csrValue a := by
  unfold State.csrValue
  split
  · exact s.readCsr_trunc _
  · exact Xlen.trunc_trunc _ _

/-! ### The instruction -/

/-- An allowed CSR instruction retires with its effects. -/
theorem State.csrInstr_allowed (s : State) (op : CsrOp) (h : s.csrPermission op.csr = .allowed) :
    s.csrInstr op = (State.retire s (s.csrEffect op).1 (s.csrEffect op).2).endItem := by
  simp [State.csrInstr, h]

/-- A refused CSR instruction raises its exception. -/
theorem State.csrInstr_refused (s : State) (op : CsrOp) (code : Nat) (h : s.csrPermission op.csr = .refused code) :
    s.csrInstr op = (s.csrRefused code).endItem := by
  simp [State.csrInstr, h]

/-- What a refused access leaves (spec/40_csr_access.md R307 (c)): every register of the hart and of the Trigger Module but those a
trap changes. -/
theorem State.csrRefused_kept (s : State) (code : Nat) : s.Kept (s.csrRefused code) :=
  (s.emit_kept _).trans (State.raise_kept _ _ _)

@[simp] theorem State.csrRefused_x (s : State) (code : Nat) : (s.csrRefused code).x = s.x := by
  simp [State.csrRefused]

/-- What a CSR instruction leaves without a write (spec/40_csr_access.md R307). -/
theorem State.csrInstr_kept (s : State) (op : CsrOp) :
    s.Kept (s.csrInstr op) ∨ ∃ c v, tmCsr op.csr = some c ∧ s.permission c = .allowed ∧ op.writes = true ∧
      (s.writeCsr c v).1.Kept (s.csrInstr op) := by
  cases hp : s.csrPermission op.csr with
  | refused code =>
    rw [State.csrInstr_refused s op code hp]
    exact .inl ((s.csrRefused_kept code).trans (State.endItem_kept _))
  | allowed =>
    rw [State.csrInstr_allowed s op hp]
    have hk : ∀ u : State, u.Kept ((u.writeReg op.rd (s.csrValue op.csr)).setPc (s.nextPc 4)) := fun u => by
      refine .of_eq ?_ ?_ ?_ ?_ ?_ ?_ ?_ <;> simp
    have hr : (s.csrWritten op).1.Kept (State.retire s (s.csrEffect op).1 (s.csrEffect op).2).endItem :=
      ((hk _).trans (State.retire_kept _ _ _)).trans (State.endItem_kept _)
    unfold State.csrWritten State.csrStore at hr
    by_cases hw : op.writes = true
    · rw [if_pos hw] at hr
      cases hc : tmCsr op.csr with
      | some c =>
        simp only [hc] at hr
        exact .inr ⟨c, _, rfl, by simpa [State.csrPermission, hc] using hp, hw, hr⟩
      | none =>
        simp only [hc] at hr
        exact .inl hr
    · rw [if_neg hw] at hr
      exact .inl hr

/-! ### Status bits -/

@[simp] theorem View.unflagged_typ (v : View) : v.unflagged.typ = v.typ := by cases v <;> rfl

@[simp] theorem Tdata1.unflagged_dmode (t : Tdata1) : t.unflagged.dmode = t.dmode := rfl

/-- A write that changes nothing but status bits of what the trigger holds is never rejected (spec/40_csr_access.md R294). -/
theorem tdata1Supported_unflagged (cfg : Config) (p : TrigImpl) (old t : Tdata1) (t2 : Word) (t3 : Textra)
    (h : t.unflagged = old.unflagged) : tdata1Supported cfg p old t2 t3 t =
      (t.fieldsLegal cfg p && tdata2Legal cfg p t.view t2 && tdata3Legal cfg p t.view t3) := by
  simp [tdata1Supported, h]

/-- Such a write is never refused either (spec/40_csr_access.md R294). -/
theorem refused_unflagged (p : TrigImpl) (i : Nat) (old t : Tdata1) (t2 : Word) (t3 : Textra) (v : Word) (debug : Bool)
    (h : t.unflagged = old.unflagged) : refused p i old t2 t3 v debug t = false := by
  simp [refused, h]

/-- The configuration of size 0 that must be supported is never refused (spec/40_csr_access.md R296). -/
theorem refused_alwaysSupported (p : TrigImpl) (i : Nat) (old t : Tdata1) (t2 : Word) (t3 : Textra) (v : Word) (debug : Bool)
    (h : alwaysSupported p t = true) : refused p i old t2 t3 v debug t = false := by
  simp [refused, h]

/-- A trigger that refuses nothing. -/
theorem refused_of_mayRefuse (p : TrigImpl) (i : Nat) (old t : Tdata1) (t2 : Word) (t3 : Textra) (v : Word) (debug : Bool)
    (h : p.mayRefuse = false) : refused p i old t2 t3 v debug t = false := by
  simp [refused, h]

/-- What `legalize_tdata1` can answer: a supported value with its hard-wired bits, or a disabled trigger. -/
theorem legalizeTdata1_cases (cfg : Config) (p : TrigImpl) (i : Nat) (old : Tdata1) (t2 : Word) (t3 : Textra) (x : Xlen)
    (v : Word) (debug : Bool) :
    (∃ t : Tdata1, legalizeTdata1 cfg p i old t2 t3 x v debug = t.normal cfg p ∧
      tdata1Supported cfg p old t2 t3 (t.normal cfg p) = true) ∨
    ∃ d : Bool, legalizeTdata1 cfg p i old t2 t3 x v debug = { disabledValue cfg p with dmode := d && cfg.hasDebugMode } := by
  have hs : ∀ (dmode : Bool) (o : Option Tdata1),
      (∃ t : Tdata1, tdata1Substitute cfg p old t2 t3 debug dmode o = t.normal cfg p ∧
        tdata1Supported cfg p old t2 t3 (t.normal cfg p) = true) ∨
      ∃ d : Bool, tdata1Substitute cfg p old t2 t3 debug dmode o =
        { disabledValue cfg p with dmode := d && cfg.hasDebugMode } := by
    intro dmode o
    unfold tdata1Substitute
    split
    · dsimp only
      split
      · exact .inl ⟨_, rfl, ‹_›⟩
      · exact .inr ⟨dmode, rfl⟩
    · exact .inr ⟨dmode, rfl⟩
  unfold legalizeTdata1
  dsimp only
  split
  · split
    · rename_i h
      exact .inl ⟨_, rfl, (Bool.and_eq_true_iff.mp h).1⟩
    · exact hs _ _
  · exact hs _ _

/-! ### Values chosen among several -/

/-- What an unsupported `tdata2` value becomes is a good substitute; or no DXLEN-bit value is one, and the implementation's offer is
stored if it is legal, while the old value stays if it is not. -/
theorem tdata2Substitute_cases (cfg : Config) (p : TrigImpl) (view : View) (x : Xlen) (old asked offered : Word) :
    tdata2SubstituteOk cfg p view x asked (tdata2Substitute cfg p view x old asked offered) = true ∨
      tdata2Substitute cfg p view x old asked offered = (if tdata2Legal cfg p view offered then offered else old) ∧
        ∀ v : Word, v.toNat < 2 ^ cfg.dxlen.bits → tdata2SubstituteOk cfg p view x asked v = false := by
  unfold tdata2Substitute
  obtain ⟨w, e, h⟩ | ⟨e, -, h⟩ := someWord_cases (tdata2SubstituteOk cfg p view x asked)
    (offered :: old :: likelyInvalid cfg p x) cfg.dxlen.bits
  · exact .inl (by rw [e]; exact h)
  · exact .inr ⟨by rw [e], h⟩

/-- A value that `tdata2` must hold, or one of a disabled trigger, is never refused (spec/40_csr_access.md R298). -/
theorem refusedTdata2_mustHold (cfg : Config) (p : TrigImpl) (i : Nat) (t1 : Tdata1) (old v : Word)
    (h : mustHold cfg p t1.view v = true ∨ t1.view.isDisabledForm p = true ∨ p.mayRefuse = false) :
    refusedTdata2 cfg p i t1 old v = false := by
  rcases h with h | h | h <;> simp [refusedTdata2, h]

/-- A legal value that is not refused is stored. -/
theorem legalizeTdata2_legal (cfg : Config) (p : TrigImpl) (i : Nat) (t1 : Tdata1) (x : Xlen) (old v : Word)
    (hm : tdata2Mask p t1.view = none) (hl : tdata2Legal cfg p t1.view v = true)
    (hr : refusedTdata2 cfg p i t1 old v = false) : legalizeTdata2 cfg p i t1 x old v = v := by
  simp [legalizeTdata2, hm, hl, hr]

/-- Under `remap` an invalid address becomes an invalid one that `tdata2` can represent, or there is none and it stays. -/
theorem State.remapped_cases (s : State) (t : Trigger) (ph : Bool) (a free : Word) :
    s.remapOk t ph (s.remapped t ph a free) = true ∨
      s.remapped t ph a free = a ∧ ∀ r : Word, r.toNat < 2 ^ s.xlen.bits → s.remapOk t ph r = false := by
  unfold State.remapped
  obtain ⟨w, e, h⟩ | ⟨e, -, h⟩ := someWord_cases (s.remapOk t ph)
    (free :: (likelyInvalid s.cfg t.impl s.xlen).map s.xlen.trunc) s.xlen.bits
  · exact .inl (by rw [e]; exact h)
  · exact .inr ⟨by rw [e]; rfl, h⟩

/-- The compare value of an address is the address, or under `remap`, for an invalid one, an invalid one that the trigger can represent
(spec/20_memory.md R205). -/
theorem State.addressValue_cases (s : State) (i : Nat) (t : Trigger) (ph : Bool) (a : Word) (k : Nat) :
    s.addressValue i t ph a k = a ∨
      s.cfg.invalidAddrPolicy = .remap ∧ s.addrValid ph a = false ∧ s.remapOk t ph (s.addressValue i t ph a k) = true := by
  unfold State.addressValue
  split
  · next c => exact (s.remapped_cases t ph a _).symm.imp And.left fun h => ⟨c.1, c.2, h⟩
  · exact .inl rfl

/-- No two triggers and no two bytes of an access share a free substitute. -/
theorem State.remapIndex_injective (s : State) (i j k l : Nat) (hi : i < s.trigs.length) (hj : j < s.trigs.length)
    (h : s.remapIndex i k = s.remapIndex j l) : i = j ∧ k = l := by
  have m : i = j := by
    simpa [State.remapIndex, Nat.mul_add_mod, Nat.mod_eq_of_lt, hi, hj] using congrArg (· % s.trigs.length) h
  have p : 0 < s.trigs.length := by omega
  subst m
  exact ⟨rfl, Nat.eq_of_mul_eq_mul_left p (Nat.add_right_cancel h)⟩

/-- `tselect` holds an XLEN-bit value (spec/10_state.md R26). -/
theorem State.legalSelect_trunc (s : State) (v : Word) (h : s.xlen.trunc v = v) :
    s.xlen.trunc (s.legalSelect v) = s.legalSelect v := by
  unfold State.legalSelect
  split
  · exact h
  · split <;> simp [h]

end Sys2Proof.Machine
end

