-- ==== Sys2Proof/Laws/PerInstr.lean ====
section
/-! SUPPORT. Statements made of every instruction, one lemma per constructor (LAWS.json). -/

namespace Sys2Proof.Laws

theorem encodeFields_toNat (csr : CsrAddr) (src : BitVec 5) (funct3 : BitVec 3) (rd : Reg) :
    (encodeFields csr src funct3 rd).toNat =
      csr.toNat * 2 ^ 20 + src.toNat * 2 ^ 15 + funct3.toNat * 2 ^ 12 + rd.toNat * 2 ^ 7 + 115 := by
  simp only [encodeFields, BitVec.toNat_append]
  rw [← Nat.shiftLeft_add_eq_or_of_lt (by simp), ← Nat.shiftLeft_add_eq_or_of_lt rd.isLt,
    ← Nat.shiftLeft_add_eq_or_of_lt funct3.isLt, ← Nat.shiftLeft_add_eq_or_of_lt src.isLt]
  simp only [Nat.shiftLeft_eq, BitVec.toNat_ofNat]
  omega

theorem encodeFields_opcode (csr : CsrAddr) (src : BitVec 5) (funct3 : BitVec 3) (rd : Reg) :
    (encodeFields csr src funct3 rd).extractLsb' 0 7 = 0b1110011#7 := by
  apply BitVec.eq_of_toNat_eq
  rw [BitVec.extractLsb'_toNat, encodeFields_toNat, Nat.shiftRight_eq_div_pow]
  simp only [BitVec.toNat_ofNat]
  omega

theorem encodeFields_csr (csr : CsrAddr) (src : BitVec 5) (funct3 : BitVec 3) (rd : Reg) :
    (encodeFields csr src funct3 rd).extractLsb' 20 12 = csr := by
  apply BitVec.eq_of_toNat_eq
  rw [BitVec.extractLsb'_toNat, encodeFields_toNat, Nat.shiftRight_eq_div_pow]
  have := csr.isLt; have := src.isLt; have := funct3.isLt; have := rd.isLt
  omega

end Sys2Proof.Laws

namespace Sys2Proof.Laws.EncodingShape

/-- The word of an instruction has the opcode SYSTEM in bits 6 to 0 and the CSR address in bits 31 to 20
(spec/30_encoding.md R230). -/
def Statement (i : Instr) : Prop :=
  (encode i).extractLsb' 0 7 = 0b1110011#7 ∧ (encode i).extractLsb' 20 12 = i.csr

theorem csrrw (rd : Reg) (a : CsrAddr) (rs1 : Reg) : Statement (.csrrw rd a rs1) :=
  ⟨encodeFields_opcode _ _ _ _, encodeFields_csr _ _ _ _⟩

theorem csrrs (rd : Reg) (a : CsrAddr) (rs1 : Reg) : Statement (.csrrs rd a rs1) :=
  ⟨encodeFields_opcode _ _ _ _, encodeFields_csr _ _ _ _⟩

theorem csrrc (rd : Reg) (a : CsrAddr) (rs1 : Reg) : Statement (.csrrc rd a rs1) :=
  ⟨encodeFields_opcode _ _ _ _, encodeFields_csr _ _ _ _⟩

theorem csrrwi (rd : Reg) (a : CsrAddr) (uimm : BitVec 5) : Statement (.csrrwi rd a uimm) :=
  ⟨encodeFields_opcode _ _ _ _, encodeFields_csr _ _ _ _⟩

theorem csrrsi (rd : Reg) (a : CsrAddr) (uimm : BitVec 5) : Statement (.csrrsi rd a uimm) :=
  ⟨encodeFields_opcode _ _ _ _, encodeFields_csr _ _ _ _⟩

theorem csrrci (rd : Reg) (a : CsrAddr) (uimm : BitVec 5) : Statement (.csrrci rd a uimm) :=
  ⟨encodeFields_opcode _ _ _ _, encodeFields_csr _ _ _ _⟩

end Sys2Proof.Laws.EncodingShape
end

