-- ==== Sys2Proof/Laws/Step.lean ====
section
/-! SUPPORT. What an evaluation of triggers, an item of the host's and a step can do, said once each. -/

namespace Sys2Proof.Machine

/-- An evaluation that goes on has changed nothing of the hart, and of the Trigger Module only what hardware changes. -/
structure State.Onward (s t : State) : Prop where
  kept : s.Kept t
  mode : t.mode = s.mode
  host : t.host = s.host
  pc : t.pc = s.pc
  x : t.x = s.x
  feed : t.feed = s.feed
  trapM : t.trapM = s.trapM
  trapS : t.trapS = s.trapS
  trapVS : t.trapVS = s.trapVS
  dpc : t.dpc = s.dpc
  mte : t.mte = s.mte
  mpte : t.mpte = s.mpte

theorem State.Onward.refl (s : State) : s.Onward s := ⟨.refl s, rfl, rfl, rfl, rfl, rfl, rfl, rfl, rfl, rfl, rfl, rfl⟩

theorem State.Onward.trans {s t u : State} (h : s.Onward t) (k : t.Onward u) : s.Onward u :=
  ⟨h.kept.trans k.kept, k.mode.trans h.mode, k.host.trans h.host, k.pc.trans h.pc, k.x.trans h.x, k.feed.trans h.feed,
    k.trapM.trans h.trapM, k.trapS.trans h.trapS, k.trapVS.trans h.trapVS, k.dpc.trans h.dpc, k.mte.trans h.mte,
    k.mpte.trans h.mpte⟩

theorem State.Onward.xlen {s t : State} (h : s.Onward t) : t.xlen = s.xlen := by
  simp [State.xlen, State.xlenIn, h.mode, h.host, h.kept.cfg]

/-- No fire of the list stops the hart. -/
def signalsOnly (ds : List Due) : Prop := ∀ d ∈ ds, d.action ≠ 0 ∧ d.action ≠ 1

/-- What a progress has kept. -/
def Progress.From (s : State) : Progress → Prop
  | .go t => s.Onward t
  | .stop t => s.Kept t ∧ t.feed = s.feed
  | .refuse _ => True

/-! ## Firing -/

theorem State.fired_onward (s : State) (ds : List Due) (o : List Signal) : s.Onward ((s.fireAll ds).emit o) :=
  ⟨(s.fireAll_kept ds).trans (State.emit_kept _ _), by simp, by simp, by simp, by simp, by simp, by simp, by simp, by simp,
    by simp, by simp, by simp⟩

theorem State.act_from (s : State) (ds : List Due) : (s.act ds).From s := by
  unfold State.act
  split
  · split
    · split
      · exact ⟨(s.takeBreakpoint_kept ds).trans (State.enterDebug_kept _), by simp⟩
      · exact trivial
    · exact ⟨s.enterDebug_kept, by simp⟩
  · split
    · exact ⟨s.takeBreakpoint_kept ds, by simp⟩
    · exact .refl s

/-- The triggers that fire together go on only if none of them stops the hart. -/
theorem State.act_go (s t : State) (ds : List Due) (h : s.act ds = .go t) : t = s ∧ signalsOnly ds := by
  unfold State.act at h
  split at h
  · split at h
    · split at h <;> cases h
    · cases h
  · next n1 =>
    split at h
    · cases h
    · next n0 =>
      cases h
      refine ⟨rfl, fun d hd => ⟨fun e => n0 ?_, fun e => n1 ?_⟩⟩ <;>
        exact List.any_eq_true.mpr ⟨d, hd, by simp [e]⟩

theorem Progress.From.mono {s t : State} {p : Progress} (h : s.Onward t) (k : p.From t) : p.From s := by
  cases p with
  | go u => exact h.trans k
  | stop u => exact ⟨h.kept.trans k.1, k.2.trans h.feed⟩
  | refuse r => trivial

theorem State.serve_from (s : State) (ds : List Due) : (s.serve ds).From s := by
  unfold State.serve
  split
  · exact .refl s
  · exact (State.act_from _ ds).mono (s.fired_onward ds _)

/-- A service that goes on has changed the fired triggers and handed out their signals, and nothing else. -/
theorem State.serve_go (s t : State) (ds : List Due) (h : s.serve ds = .go t) :
    t = (s.fireAll ds).emit (ds.filterMap fun d => actionSignal d.action) ∧ signalsOnly ds := by
  unfold State.serve at h
  split at h
  · next e =>
    cases h
    rw [List.isEmpty_iff] at e
    subst e
    exact ⟨by simp [State.fireAll, State.emit], fun d hd => by cases hd⟩
  · exact State.act_go _ _ ds h

/-! ## Observing -/

theorem State.inProgress_onward (s : State) (m : List Matched) (d : List Due) : s.Onward (s.setInProgress m d) :=
  ⟨.of_eq rfl rfl rfl rfl rfl rfl rfl, rfl, rfl, rfl, rfl, rfl, rfl, rfl, rfl, rfl, rfl, rfl⟩

theorem State.deferred_onward (s : State) (d : List Due) : s.Onward (s.setDeferred d) :=
  ⟨.of_eq rfl rfl rfl rfl rfl rfl rfl, rfl, rfl, rfl, rfl, rfl, rfl, rfl, rfl, rfl, rfl, rfl⟩

theorem State.markMatches_onward (s : State) : s.Onward s.markMatches :=
  ⟨s.markMatches_kept, by simp, by simp, by simp, by simp, by simp, by simp, by simp, by simp, by simp, by simp, by simp⟩

theorem State.observe_from (s : State) (e : Event) (r : Rank) : (s.observe e r).From s := by
  unfold State.observe
  split
  · exact .refl s
  · split
    · trivial
    · split
      · exact .refl s
      · have n : s.Onward (s.noted e r (s.newMatches e r)) := s.inProgress_onward _ _
        refine Progress.From.mono n ?_
        unfold State.followUp
        split
        · trivial
        · exact (State.serve_from _ _).mono
            (((State.inProgress_onward _ _ _).trans (State.deferred_onward _ _)).trans (State.markMatches_onward _))

/-- Nothing is observed in Debug Mode (spec/41_trigger_common.md R321). -/
theorem State.observe_debug (s : State) (e : Event) (r : Rank) (h : s.mode = .debug) : s.observe e r = .go s := by
  simp [State.observe, h]

/-! ## The boundary -/

theorem State.boundary_from (s : State) (sigs : List HostItem) : (s.boundary sigs).From s := by
  have o : s.Onward ((s.setTrigs (s.trigs.mapIdx (s.afterSignal sigs))).setWaiting s.stillWaiting) := by
    refine ⟨?_, rfl, rfl, rfl, rfl, rfl, rfl, rfl, rfl, rfl, rfl, rfl⟩
    refine (State.Kept.setTrigs s _ ?_).trans (.of_eq rfl rfl rfl rfl rfl rfl rfl)
    exact evolves_mapIdx _ _ _ fun i t => s.afterSignal_evolves _ sigs i t
  exact (State.serve_from _ _).mono o

/-! ## A host instruction -/

theorem State.stopAt_from (s u : State) (h : HostInsn) (k : Nat) (p : Progress) (f : p.From u) :
    (s.stopAt h k p).From u := by
  cases p with
  | go t => exact f
  | stop t => exact ⟨f.1.trans (.of_eq rfl rfl rfl rfl rfl rfl rfl), by simpa [State.stopAt] using f.2⟩
  | refuse r => trivial

/-- An instruction that stops has the registers of its own mode, written before the trap (spec/42_memory_access_triggers.md
R372). -/
theorem State.stopAt_stop (s t : State) (h : HostInsn) (k : Nat) :
    s.stopAt h k (.stop t) = .stop (t.setRegs (s.writeRegs (s.partialRegs h k)).x) := rfl

theorem State.hostFault_kept (s : State) (c : Nat) : s.Kept (s.hostFault c) := s.raise_kept _ _

@[simp] theorem State.hostFault_feed (s : State) (c : Nat) : (s.hostFault c).feed = s.feed := by
  simp [State.hostFault]

theorem State.perform_from (s : State) (h : HostInsn) (k : Nat) (a : Access) (e : Option Event) :
    (s.perform h k a e).From s := by
  unfold State.perform
  split
  · exact ⟨(s.writeRegs_kept _).trans (State.hostFault_kept _ _), by simp⟩
  · split
    · exact State.stopAt_from _ _ _ _ _ (s.observe_from _ _)
    · exact .refl s

theorem State.runAccess_from (s : State) (h : HostInsn) (k : Nat) (a : Access) : (s.runAccess h k a).From s := by
  unfold State.runAccess
  split
  · exact s.perform_from h k a none
  · next e _ =>
    have o := s.observe_from e .accessBefore
    split
    · next t ht => exact (State.perform_from t h k a (some e)).mono (by simpa [ht, Progress.From] using o)
    · next t ht => exact State.stopAt_from _ _ _ _ _ (by simpa [ht] using o)
    · trivial

theorem State.tick_onward (s : State) : s.Onward s.tick :=
  ⟨.of_eq rfl rfl rfl rfl rfl rfl rfl, rfl, rfl, rfl, rfl, rfl, rfl, rfl, rfl, rfl, rfl, rfl⟩

theorem State.runAccesses_from (s : State) (h : HostInsn) (k : Nat) (l : List Access) : (s.runAccesses h k l).From s := by
  induction l generalizing s k with
  | nil => exact .refl s
  | cons a rest ih =>
    unfold State.runAccesses
    have o := (State.runAccess_from s.tick h k a).mono s.tick_onward
    split
    · next t ht => exact (ih t (k + 1)).mono (by simpa [ht, Progress.From] using o)
    · next t ht => simpa [ht] using o
    · trivial

theorem State.hostWrites_kept (s : State) (h : HostInsn) : s.Kept (s.hostWrites h) := by
  refine .of_eq ?_ ?_ ?_ ?_ ?_ ?_ ?_ <;> simp [State.hostWrites, State.continueAt]

theorem State.hostEffect_kept (s : State) (h : HostInsn) : s.Kept (s.hostEffect h) := by
  unfold State.hostEffect
  split
  · exact (s.hostWrites_kept h).trans (State.returnFromTrap_kept _)
  · exact s.hostWrites_kept h

theorem State.runHostInsn_kept (s t : State) (h : HostInsn) (e : s.runHostInsn h = .next t) : s.Kept t := by
  unfold State.runHostInsn at e
  split at e
  · cases e
    exact (s.hostFault_kept _).trans (State.endItem_kept _)
  · have o := s.runAccesses_from h 0 h.accesses
    unfold Progress.andThen at e
    split at e
    · next u hu =>
      rw [hu] at o
      cases e
      exact ((State.Onward.kept o).trans ((State.hostEffect_kept _ _).trans (State.retire_kept _ _ _))).trans
        (State.endItem_kept _)
    · next u hu =>
      rw [hu] at o
      cases e
      exact (And.left o).trans (State.endItem_kept _)
    · cases e

/-! ## A step -/

/-- The machine has written a register of the Trigger Module by a CSR instruction that its mode allows. -/
def State.WroteCsr (s t : State) : Prop :=
  ∃ u c v, s.Kept u ∧ u.mode = s.mode ∧ u.host = s.host ∧ u.permission c = .allowed ∧ (u.writeCsr c v).1.Kept t

/-- Every instruction has a next state. -/
theorem exec_next (i : Instr) (s : State) : ∃ op : CsrOp, op.csr = i.csr ∧ exec i s = .next (s.csrInstr op) := by
  cases i <;> exact ⟨_, rfl, rfl⟩

theorem exec_kept (i : Instr) (s t : State) (e : exec i s = .next t) : s.Kept t ∨ s.WroteCsr t := by
  obtain ⟨op, _, h⟩ := exec_next i s
  rw [h] at e
  cases e
  rcases s.csrInstr_kept op with k | ⟨c, v, _, hp, _, k⟩
  · exact .inl k
  · exact .inr ⟨s, c, v, .refl s, rfl, rfl, hp, k⟩

theorem State.WroteCsr.mono {s t u : State} (h : s.Onward t) (w : t.WroteCsr u) : s.WroteCsr u := by
  obtain ⟨a, c, v, k, m, ho, p, l⟩ := w
  exact ⟨a, c, v, h.kept.trans k, m.trans h.mode, ho.trans h.host, p, l⟩

theorem State.runCsrInsn_cases (s t : State) (h : HostInsn) (i : Instr) (e : s.runCsrInsn h i = .next t) :
    s.Kept t ∨ s.WroteCsr t := by
  unfold State.runCsrInsn at e
  split at e
  · exact exec_kept i s t e
  · split at e
    · cases e
      exact .inl ((s.hostFault_kept _).trans (State.endItem_kept _))
    · obtain ⟨op, _, hx⟩ := exec_next i s
      rw [hx] at e
      have hh : ∀ (u : State) (n : HostCsrs), u.Kept (u.setHost n) := fun u n => .of_eq rfl rfl rfl rfl rfl rfl rfl
      have hk : (s.csrInstr op).Kept t := by
        unfold withHost at e
        split at e
        · next he =>
          cases he
          cases e
          exact hh _ _
        · cases e
          exact .refl _
      rcases exec_kept i s _ hx with k | ⟨a, c, v, k, m, ho, p, l⟩
      · exact .inl (k.trans hk)
      · exact .inr ⟨a, c, v, k, m, ho, p, l.trans hk⟩

theorem Progress.andThen_next {s t : State} {p : Progress} {f : State → Host.Outcome State Fault Refusal} (o : p.From s)
    (e : p.andThen f = .next t) : (∃ u, p = .go u ∧ s.Onward u ∧ f u = .next t) ∨ s.Kept t := by
  unfold Progress.andThen at e
  split at e
  · exact .inl ⟨_, rfl, o, e⟩
  · cases e
    exact .inr ((And.left o).trans (State.endItem_kept _))
  · cases e

theorem State.runInsn_cases (s t : State) (h : HostInsn) (e : s.runInsn h = .next t) : s.Kept t ∨ s.WroteCsr t := by
  unfold State.runInsn at e
  rcases Progress.andThen_next (s.observe_from _ _) e with ⟨u, _, ou, eu⟩ | k
  · split at eu
    · cases eu
      exact .inl (ou.kept.trans ((State.hostFault_kept _ _).trans (State.endItem_kept _)))
    · rcases Progress.andThen_next (u.observe_from _ _) eu with ⟨w, _, ow, ew⟩ | k
      · have o := ou.trans ow
        unfold State.runDecoded at ew
        split at ew
        · rcases w.runCsrInsn_cases t h _ ew with k | k
          · exact .inl (o.kept.trans k)
          · exact .inr (k.mono o)
        · exact .inl (o.kept.trans (w.runHostInsn_kept t h ew))
      · exact .inl (ou.kept.trans k)
  · exact .inl k

theorem State.interrupted_kept (s : State) (c : Nat) (n : Bool) (k : Handler) : s.Kept (s.interrupted c n k) := by
  unfold State.interrupted
  split
  · exact s.tick_onward.kept
  · exact s.takeTrap_kept _ _ _ _ _

theorem State.resumed_kept (s : State) (md : Mode) (v : Word) : s.Kept (s.resumed md v) := by
  unfold State.resumed
  split <;> exact .of_eq rfl rfl rfl rfl rfl rfl rfl

/-- A host address is XLEN bits wide whatever its own width (spec/20_memory.md R203). -/
theorem extendAddr_trunc (x : Xlen) (n : Nat) (ph : Bool) (a : Word) :
    x.trunc (extendAddr x n ph a) = extendAddr x n ph a := by
  unfold extendAddr
  split
  · split
    · exact Xlen.trunc_trunc x _
    · rename_i h _
      cases x with
      | x64 => rfl
      | x32 =>
        have hn : 2 ^ n ≤ 2 ^ 32 := Nat.pow_le_pow_right (by decide) (Nat.le_of_lt h)
        have k : (lowOnes n).toNat < 2 ^ 32 := by
          have := Nat.mod_le (2 ^ n - 1) (2 ^ 64)
          have := Nat.two_pow_pos n
          simp only [lowOnes, BitVec.toNat_ofNat]; omega
        apply BitVec.eq_of_toNat_eq
        have : (a &&& lowOnes n).toNat < 2 ^ 32 := by
          rw [BitVec.toNat_and]; exact Nat.lt_of_le_of_lt Nat.and_le_right k
        simp only [Xlen.trunc, BitVec.extractLsb'_toNat, BitVec.toNat_setWidth, Nat.shiftRight_zero]
        omega
  · exact Xlen.trunc_trunc x _

theorem State.delivered_kept (s : State) : s.Kept s.delivered := by
  unfold State.delivered
  split
  · exact .refl s
  · exact .of_eq rfl rfl rfl rfl rfl rfl rfl

theorem State.delivered_mode (s : State) : s.delivered.mode = s.mode := by
  unfold State.delivered
  split <;> rfl

theorem State.delivered_host (s : State) : s.delivered.host = s.host := by
  unfold State.delivered
  split <;> rfl

/-- With no signal at its head, all that the host presents stays. -/
theorem State.delivered_of_none (s : State) (h : signalsAt s.feed = []) : s.delivered = s := by
  simp [State.delivered, h]

theorem State.runItem_cases (s t : State) (i : HostItem) (e : s.runItem i = .next t) : s.Kept t ∨ s.WroteCsr t := by
  cases i with
  | insn h => exact s.runInsn_cases t h e
  | interrupt c n k =>
    cases e
    exact .inl ((s.interrupted_kept c n k).trans (State.endItem_kept _))
  | extIn k =>
    cases e
    exact .inl (.of_eq rfl rfl rfl rfl rfl rfl rfl)
  | intCtl =>
    cases e
    exact .inl (.of_eq rfl rfl rfl rfl rfl rfl rfl)
  | resume md v =>
    cases e
    exact .inl ((s.resumed_kept md v).trans (State.endItem_kept _))
  | host n =>
    cases e
    exact .inl (.of_eq rfl rfl rfl rfl rfl rfl rfl)

/-- WHAT A STEP CAN DO to the Trigger Module's registers: what hardware does (`State.Kept`), or that and one CSR write that the
mode of the machine before the step allows. -/
theorem step_cases (s t : State) (e : step s = .next t) : s.Kept t ∨ s.WroteCsr t := by
  have o := s.boundary_from (signalsAt s.feed)
  unfold step at e
  split at e
  · next u hu =>
    rw [hu] at o
    have o : s.Onward u := o
    unfold State.runNext at e
    split at e
    · cases e
      exact .inl (o.kept.trans u.delivered_kept)
    · rcases u.delivered.runItem_cases t _ e with k | ⟨a, c, v, k, m, ho, p, l⟩
      · exact .inl ((o.kept.trans u.delivered_kept).trans k)
      · exact .inr ⟨a, c, v, (o.kept.trans u.delivered_kept).trans k, (m.trans u.delivered_mode).trans o.mode,
          (ho.trans u.delivered_host).trans o.host, p, l⟩
  · next u hu =>
    rw [hu] at o
    cases e
    exact .inl ((And.left o).trans u.delivered_kept)
  · cases e

end Sys2Proof.Machine
end

