-- ==== Sys2Proof/Tests/Slice0.lean ====
section
/-! SUPPORT. Tests by evaluation. Expected results are the spec's own vectors (spec/95_test_vectors.md), not the model's
answers. Then, for every statement with hypotheses, operands and a state that meet them: at the boundary values of each
clause where there are several. -/

namespace Sys2Proof.Tests
open Sys2Proof Sys2Proof.Machine

/-! ## Decoding: the words of spec/95_test_vectors.md section 2.1 -/

theorem test_decode_csrrw_tselect : decodeTableWord 32 0x7a029073 = some (.csrrw 0 0x7a0 5) := by decide
theorem test_decode_csrrw_tdata1 : decodeTableWord 32 0x7a1312f3 = some (.csrrw 5 0x7a1 6) := by decide
theorem test_decode_csrrs_tdata1 : decodeTableWord 32 0x7a1322f3 = some (.csrrs 5 0x7a1 6) := by decide
theorem test_decode_csrrs_mscontext : decodeTableWord 32 0x7aa022f3 = some (.csrrs 5 0x7aa 0) := by decide
theorem test_decode_csrrc_tdata1 : decodeTableWord 32 0x7a1332f3 = some (.csrrc 5 0x7a1 6) := by decide
theorem test_decode_csrrwi_tselect : decodeTableWord 32 0x7a0fd2f3 = some (.csrrwi 5 0x7a0 31) := by decide
theorem test_decode_csrrsi_tcontrol : decodeTableWord 32 0x7a546073 = some (.csrrsi 0 0x7a5 8) := by decide
theorem test_decode_csrrci_tcontrol : decodeTableWord 32 0x7a547073 = some (.csrrci 0 0x7a5 8) := by decide

/-- `ebreak` has `funct3` 000: no CSR instruction (spec/30_encoding.md R232). -/
theorem test_decode_rejects_funct3 : decodeWord 0x00100073 = .error .notCsrFunct3 := by rfl

/-- Another opcode is no CSR instruction (R230). -/
theorem test_decode_rejects_opcode : decodeWord 0x00000013 = .error .notSystemOpcode := by rfl

/-- No CSR instruction has a 16-bit form (R240). -/
theorem test_decode_rejects_length : decode 0x9002 16 = .error .notThirtyTwoBits := by rfl

/-! ## Small states -/

/-- A trigger with a view, of an implementation that supports every type. -/
def trigger (v : View) (dmode : Bool := false) : Trigger where
  impl := TrigImpl.default 0x80fc
  tdata1 := ⟨dmode, v⟩

/-- `T[0]` of section 2.1 before each row: mcontrol6 `u` `execute`, the image 0x6000000c. -/
def watcher : View := .mcontrol6 { u := true, execute := true }

/-- A disabled trigger. -/
def off : View := .disabled 0

/-- The machine after reset but for its triggers and its mode. -/
def machine (ts : List Trigger) (md : Mode := .m) : State := { State.reset with trigs := ts, mode := md }

/-- The machine of section 2.1. -/
def base : State :=
  machine [{ impl := TrigImpl.default 0x8044, tdata1 := ⟨false, watcher⟩ }, trigger off]

/-- The outcome is a next state. -/
def isNext (o : Host.Outcome State Fault Refusal) : Bool :=
  match o with
  | .next _ => true
  | _ => false

theorem next_of_isNext {o : Host.Outcome State Fault Refusal} (h : isNext o = true) : ∃ t, o = .next t := by
  cases o with
  | next t => exact ⟨t, rfl⟩
  | fault r => cases h
  | refused r => cases h

/-- A general register and a Trigger Module register of the next state. -/
def seen (o : Host.Outcome State Fault Refusal) (r : Reg) (c : TmCsr) : Option (Word × Word) :=
  match o with
  | .next t => some (t.readReg r, t.readCsr c)
  | _ => none

/-- What the trap to M-mode recorded, and the mode, of the next state. -/
def trapSeen (o : Host.Outcome State Fault Refusal) : Option (TrapRegs × Mode) :=
  match o with
  | .next t => some (t.trapM, t.mode)
  | _ => none

/-- Presents one instruction word. -/
def presents (w : BitVec 128) : List HostItem := [.insn { insn := w }]

/-! ## One step, from spec/95_test_vectors.md section 2.1 -/

/-- A1. -/
theorem test_csrrw_A1 :
    seen (exec (.csrrw 5 0x7a1 6) (base.writeReg 6 0x6000004c)) 5 .tdata1 = some (0x6000000c, 0x6000004c) := by decide

/-- A2: source and destination the same, and a write of 0 disables. -/
theorem test_csrrw_A2 :
    seen (exec (.csrrw 5 0x7a1 5) (base.writeReg 5 0)) 5 .tdata1 = some (0x6000000c, 0xf0000000) := by decide

/-- A3. -/
theorem test_csrrs_A3 :
    seen (exec (.csrrs 5 0x7a1 6) (base.writeReg 6 0x40)) 5 .tdata1 = some (0x6000000c, 0x6000004c) := by decide

/-- A10, in U-mode: code 2, to M-mode. -/
theorem test_csrrs_A10 :
    trapSeen (exec (.csrrs 5 0x7a1 0) (base.setMode .u)) =
      some (⟨0, false, 2, Xlen.trunc .x32 (Config.freeWord .hostTval 0 0)⟩, .m) := by rfl

/-- A5. -/
theorem test_csrrc_A5 :
    seen (exec (.csrrc 5 0x7a1 6) (base.writeReg 6 0x0c)) 5 .tdata1 = some (0x6000000c, 0x60000000) := by decide

/-- A8: `tselect` holds 31, so that no trigger is selected and `tinfo` reads 1 in `info`. -/
theorem test_csrrwi_A8 : seen (exec (.csrrwi 5 0x7a0 31) base) 5 .tinfo = some (0, 0x01000001) := by decide

/-- A6: no write. -/
theorem test_csrrsi_A6 : seen (exec (.csrrsi 5 0x7a1 0) base) 5 .tdata1 = some (0x6000000c, 0x6000000c) := by decide

/-- `tcontrol.mte` is bit 3 (section 2.2). -/
theorem test_csrrsi_tcontrol : seen (exec (.csrrsi 0 0x7a5 8) base) 0 .tcontrol = some (0, 8) := by decide

/-- A7. -/
theorem test_csrrci_A7 : seen (exec (.csrrci 0 0x7a1 1) base) 0 .tdata1 = some (0, 0x6000000c) := by decide

/-- A whole step: the instruction at the watched address traps before it runs, with `tval` the address, and the image of the
trigger then has `{hit1, hit0}` = 1 (section 2.2). -/
theorem test_csrrci_watched :
    let s := { base with mode := .u, pc := 0x1000, feed := presents 0x7a10f073,
                         trigs := [{ trigger watcher with tdata2 := 0x1000 }] }
    trapSeen (step s) = some (⟨0x1000, false, 3, 0x1000⟩, .m) ∧ seen (step s) 0 .tdata1 = some (0, 0x6040000c) := by
  exact ⟨rfl, rfl⟩

/-- The first instruction after reset, as the host stores it. -/
theorem test_csrrwi_from_reset :
    seen (step (State.reset.withFetchWord 32 0x7a0fd2f3)) 5 .tselect = some (0, 31) := by decide

/-! ## Well-formedness: for each check a configuration that it refuses -/

/-- The trigger of the refused configurations. -/
def good : TrigImpl := TrigImpl.default 0x80fc

theorem wf_default : wf Config.default TrigImpl.defaults = true := by decide
theorem wf_refuses_no_trigger : wfNtrig [] = false := by decide
theorem wf_refuses_reserved_type : wfInfo { good with info := 0x8100 } = false := by decide
theorem wf_refuses_reset_type : wfResetType { good with resetType := 8 } = false := by decide
theorem wf_refuses_reserved_action : wfActions { good.icount with actions := [0, 5] } = false := by decide
theorem wf_refuses_only_debug_action : wfUsableAction Config.default { good.icount with actions := [1] } = false := by decide
theorem wf_refuses_reserved_match : wfMatches { good.mcontrol with matchOps := [0, 6] } = false := by decide
theorem wf_refuses_only_napot : wfUsableMatch { good.mcontrol with matchOps := [1] } false = false := by decide
theorem wf_refuses_unlisted_size : wfSizes { good.mcontrol6 with sizes := [7] } 6 = false := by decide
theorem wf_refuses_codes : wfCodes { good with tmext := { good.tmext with actions := [6] } } = false := by decide
theorem wf_refuses_unusable_view :
    wfUsable Config.default { good with resetType := 5, etrigger := { good.etrigger with actions := [1] } } = false := by
  decide
theorem wf_refuses_no_timing : wfTimings { good with timing0 := 0xfffe, timing1 := 0xfffe } = false := by decide
theorem wf_refuses_napot6 : wfNapot6 Config.default { good with maskmax6 := 32 } = false := by decide
theorem wf_refuses_count : wfCount { good with countBits := 0 } = false := by decide
theorem wf_refuses_textra_widths : wfTextraWidths { good with mhvalueBits := 14 } = false := by decide
theorem wf_refuses_selects : wfSelects { good with mhselects := [3] } = false := by decide
theorem wf_refuses_masks : wfMasks Config.default { good with etriggerMask := 0x100000000 } = false := by decide
theorem wf_refuses_tdata2_ranges :
    wfTdata2Ranges Config.default { good with tdata2Ranges := [(0, 0x100000000)] } = false := by decide
theorem wf_refuses_size_zero_rejected :
    wfAnySize Config.default { good with rejects := [(0xf000000000070000, 0x6000000000000000)], anySize := [0x6000000000000000] }
      = false := by decide
theorem wf_refuses_size_zero_refused : wfAnySize Config.default { good with mayRefuse := true } = false := by decide
theorem wf_refuses_no_textra : wfNoTextra { good with noTextra := [7] } = false := by decide
theorem wf_refuses_reset_tdata2 : wfResetTdata2 Config.default { good with resetTdata2 := 0x100000000 } = false := by decide
theorem wf_refuses_reset_data : wfResetData Config.default { good with resetData := 0x8000000 } = false := by decide
theorem wf_refuses_trigger : wfTrig Config.default { good with info := 0 } = false := by decide
theorem wf_refuses_cache : wfCache { Config.default with cacheBlockBytes := 0 } = false := by decide
theorem wf_refuses_contexts : wfContexts { Config.default with hasHcontext := true } = false := by decide
theorem wf_refuses_context_bits : wfContextBits { Config.default with scontextBits := 33 } = false := by decide
theorem wf_refuses_inputs : wfInputs { Config.default with extInputs := 17 } = false := by decide
theorem wf_refuses_reentrancy :
    wfReentrancy { Config.default with reentrancy := .tcontrol, hasTcontrol := false } = false := by decide
theorem wf_refuses_addresses :
    wfAddresses { Config.default with validRanges := [(0, 0x100000000)] } = false := by decide
theorem wf_refuses_ilens : wfIlens { Config.default with ilens := [24] } = false := by decide
theorem wf_refuses_select_reset :
    wfSelectReset { Config.default with tselectReset := 2 } TrigImpl.defaults = false := by decide
theorem wf_refuses_no_tinfo : wfTinfo { Config.default with hasTinfo := false } TrigImpl.defaults = false := by decide
theorem wf_refuses_no_tinfo_with_writable_type :
    wfTinfo { Config.default with hasTinfo := false, version := 0 } [{ TrigImpl.default 0x0004 with resetType := 2 }] = false := by
  decide
theorem wf_refuses_no_tdata2 :
    wfTdata2Exists { Config.default with hasTdata2 := false } TrigImpl.defaults = false := by decide

/-! ## Witnesses: operands and states that meet the hypotheses of each statement -/

/-- A well-formed implementation without S-mode and U-mode. -/
def bare : Config := { Config.default with hasS := false, hasU := false }

/-- An implementation with the H extension and Smstateen. -/
def full : Config := { Config.default with hasH := true, hasSmstateen := true, hasHcontext := true }

/-- A supported mcontrol6 configuration, with a `match` code. -/
def matching (op : BitVec 4) : View := .mcontrol6 { matchOp := op, u := true, store := true }

/-- The fire of trigger `i` with an action. -/
def fire (i : Nat) (action : BitVec 4) : Due := { trig := i, tdata1 := ⟨true, .mcontrol6 { action := action }⟩ }

/-- A quiet machine, all triggers disabled, that is shown one word. -/
def quietBase : State := { machine [trigger off] with feed := presents 0x7a0fd2f3 }

theorem witness_RegisterImagesRoundTrip :
    (∀ f : Mcontrol, View.mcontrol { size := 3 } = .mcontrol f → f.size.toNat < 4) ∧
    (∀ d : BitVec 59, View.disabled 0x7ffffff = .disabled d → d.toNat < 2 ^ 27) ∧
    (0x3f#13).toNat < 2 ^ 6 ∧ (0x3#4).toNat < 2 ^ 2 ∧ (0xffff#32).toNat < 2 ^ 16 := by
  refine ⟨?_, ?_, by decide, by decide, by decide⟩ <;> (intro f h; cases h; decide)

theorem witness_AccessTable :
    TmCsr.existsIn full .scontext = true ∧ TmCsr.existsIn Config.default .mcontext = true ∧
    (machine [] .m).mode.isMachine = true ∧ (machine [] .debug).mode.isMachine = true ∧ (machine [] .s).mode = .s ∧
    TmCsr.isContext .mscontext = true ∧ TmCsr.isContext .mcontext = false ∧ Config.default.hasSmstateen = false ∧
    (machine [] .vs).mode = .vs ∧ (machine [] .u).mode.isUser = true ∧ (machine [] .vu).mode.isUser = true := by decide

theorem witness_StateEnableGatesContexts :
    TmCsr.existsIn full .scontext = true ∧ TmCsr.existsIn full .hcontext = true ∧ TmCsr.isContext .scontext = true ∧
    TmCsr.isContext .hcontext = true ∧ full.hasSmstateen = true ∧ (machine [] .s).mode = .s ∧
    (machine [] .vs).mode = .vs := by decide

theorem witness_MissingRegisterRaisesIllegalInstruction :
    let s (md : Mode) : State := { machine [trigger off] md with cfg := { Config.default with hasTdata3 := false } }
    tmCsr (Instr.csrrs 5 0x7a3 0).csr = some .tdata3 ∧ TmCsr.existsIn (s .m).cfg .tdata3 = false ∧
    (s .m).mode ≠ .debug ∧ TmCsr.existsIn (s .debug).cfg .tdata3 = false := by decide

theorem witness_RefusedAccessWritesNothing :
    tmCsr (Instr.csrrs 5 0x7a1 0).csr = some .tdata1 ∧ (base.setMode .u).permission .tdata1 = .refused 2 ∧
    (base.setMode .debug).permission .hcontext = .refused 2 ∧
    ({ base with cfg := full, mode := .vs, host := { mstateen57 := true } } : State).permission .scontext = .refused 22 := by
  decide

theorem witness_MachineAccessSucceeds :
    tmCsr (Instr.csrrw 5 0x7a2 6).csr = some .tdata2 ∧ TmCsr.existsIn base.cfg .tdata2 = true ∧
    base.mode.isMachine = true ∧ (base.setMode .debug).mode.isMachine = true := by decide

theorem witness_CsrrwCompletes : tmCsr 0x7a1 = some .tdata1 ∧ base.permission .tdata1 = .allowed := by decide

theorem witness_CsrrsCompletes : tmCsr 0x7a4 = some .tinfo ∧ base.permission .tinfo = .allowed := by decide

theorem witness_CsrrcCompletes : tmCsr 0x7a2 = some .tdata2 ∧ (base.setMode .debug).permission .tdata2 = .allowed := by
  decide

theorem witness_CsrrwiCompletes : tmCsr 0x7a0 = some .tselect ∧ base.permission .tselect = .allowed := by decide

theorem witness_CsrrsiCompletes : tmCsr 0x7a5 = some .tcontrol ∧ base.permission .tcontrol = .allowed := by decide

theorem witness_CsrrciCompletes : tmCsr 0x5a8 = some .scontext ∧ (base.setMode .s).permission .scontext = .allowed := by
  decide

theorem witness_HostCsrInstructionCompletes : tmCsr (Instr.csrrw 5 0x300 6).csr = none := by decide

theorem witness_StepRunsDecodedInstruction :
    ∃ a b d : State, quietBase.feed = .insn { insn := 0x7a0fd2f3 } :: [] ∧
      decode 0x7a0fd2f3 32 = .ok (.csrrwi 5 0x7a0 31) ∧ tmCsr 0x7a0 = some .tselect ∧
      quietBase.boundary [] = .go a ∧ a.observe (a.execEvent { insn := 0x7a0fd2f3 }) .executeAddress = .go b ∧
      b.observe (b.execEvent { insn := 0x7a0fd2f3 }) .executeData = .go d :=
  ⟨_, _, _, rfl, rfl, rfl, rfl, rfl, rfl⟩

theorem witness_QuietStepIsExec :
    quietBase.quiet = true ∧ quietBase.feed = .insn { insn := 0x7a0fd2f3 } :: [] ∧
      decode 0x7a0fd2f3 32 = .ok (.csrrwi 5 0x7a0 31) ∧ tmCsr 0x7a0 = some .tselect :=
  ⟨by decide, rfl, rfl, rfl⟩

theorem witness_WritesReachOneRegister :
    base.trigs[0]?.isSome = true ∧ base.trigs[1]?.isSome = true ∧ 1 ≠ base.tselect.toNat ∧ 0 = base.tselect.toNat := by
  decide

theorem witness_SelectReadBackFindsTheTriggers :
    base.xlen.trunc 1 = 1 ∧ (1#64).toNat < base.trigs.length ∧ base.xlen.trunc 2 = 2 ∧ ¬(2#64).toNat < base.trigs.length := by
  decide

theorem witness_WritingInfoHasNoEffect :
    (Instr.csrrw 0 0x7a4 5).csr = 0x7a4 ∧ (Instr.csrrci 0 0x7a4 1).csr = 0x7a4 ∧ base.mode.isMachine = true ∧
    (base.setMode .debug).mode.isMachine = true ∧ base.cfg.hasTinfo = true := by decide

theorem witness_ContextWritesReachTheOneValue : base.xlen.trunc 0xffffffff = 0xffffffff := by decide

/-- A trigger of the single type 6 that disables by keeping the type. -/
def single : Trigger where
  impl := { TrigImpl.default 0x0040 with resetType := 6, disableKeepsType := true }
  tdata1 := ⟨false, watcher⟩

theorem witness_WritingZeroDisables :
    base.trigs[base.tselect.toNat]?.isSome = true ∧ base.mayWrite (trigger watcher) = true ∧
    multiType (trigger watcher).impl = true ∧ multiType single.impl = false ∧
    (base.setMode .debug).mayWrite (trigger watcher true) = true := by decide

/-- Disabled, and of type 3 with no mode enabled though `pending` is set, beside a fire of another trigger that waits. -/
theorem witness_DisabledTriggerNeverMatches :
    let s := { machine [trigger off, trigger (.icount { count := 1, pending := true })] with waiting := [fire 2 0] }
    ∀ i t, (i, t) ∈ [(0, trigger off), (1, trigger (.icount { count := 1, pending := true }))] →
      s.trigs[i]? = some t ∧ t.tdata1.view.enablesClear = true ∧ t.extHeld = false ∧ ∀ d ∈ s.waiting, d.trig ≠ i := by
  intro s i t h
  simp only [List.mem_cons, List.not_mem_nil, or_false, Prod.mk.injEq] at h
  rcases h with ⟨rfl, rfl⟩ | ⟨rfl, rfl⟩ <;> exact ⟨rfl, rfl, rfl, by decide⟩

theorem witness_MachineWriteKeepsDmode : (machine [trigger watcher true] .m).mode ≠ .debug := by decide

theorem witness_MissingModesHaveNoEnable :
    (∃ n, ({ base with cfg := bare } : State).newTdata1 0 (trigger off) 0x6000005c false = some n ∧ n.typ ≠ 7) ∧
    bare.hasS = false ∧ bare.hasU = false ∧ bare.hasH = false := by
  exact ⟨⟨_, rfl, by decide⟩, by decide⟩

/-- The value of vector A20, before a debugger's trigger. -/
theorem witness_ChainIntoDebuggersTriggerZeroed :
    let s := machine [trigger watcher, trigger watcher true]
    ∃ n, s.newTdata1 0 (trigger watcher) 0x6000080c false = some n ∧ s.trigs[0 + 1]? = some (trigger watcher true) ∧
      (trigger watcher true).tdata1.dmode = true ∧ n.dmode = false :=
  ⟨_, rfl, rfl, rfl, rfl⟩

theorem witness_ActionOneNeedsDmode :
    ∃ n, base.newTdata1 0 (trigger off) 0x6000200c false = some n ∧ n.dmode = false ∧ n.action = 2 := ⟨_, rfl, rfl, rfl⟩

theorem witness_StoredTdata1IsLegal :
    wfTrig base.cfg (trigger watcher).impl = true ∧ trigLegal base.cfg (trigger watcher) = true ∧
    (base.newTdata1 0 (trigger watcher) 0x6000004c false).isSome = true := by decide

/-- A hart with DXLEN 64 whose M-mode has XLEN 32, and whose valid addresses are the physical ones below 0x80010000. -/
def narrow (ts : List Trigger) : State :=
  { machine ts with
    cfg := { Config.default with dxlen := .x64, validRanges := [(0, 0x8000ffff)] }
    host := { xlens := { m := .x32 } } }

/-- The lowest and the highest valid address, under each plain match operation. -/
theorem witness_ValidAddressIsHeldExactly :
    let s := machine [trigger (matching 3)]
    s.trigs[s.tselect.toNat]? = some (trigger (matching 3)) ∧ s.mayWrite (trigger (matching 3)) = true ∧
    (∀ op ∈ [0, 2, 3, 8], trigLegal s.cfg (trigger (matching op)) = true ∧
      ∃ a : AccessSel, (trigger (matching op)).accessSel s.xlen = some a ∧ a.select = false ∧ a.matchOp = op.toNat) ∧
    s.xlen.trunc 0 = 0 ∧ validAt s.cfg s.xlen (widen s.cfg.dxlen s.xlen 0) = true ∧
    s.xlen.trunc 0xffffffff = 0xffffffff ∧ validAt s.cfg s.xlen (widen s.cfg.dxlen s.xlen 0xffffffff) = true := by
  refine ⟨rfl, by decide, ?_, by decide, by decide, by decide, by decide⟩
  intro op h
  simp only [List.mem_cons, List.not_mem_nil, or_false] at h
  rcases h with rfl | rfl | rfl | rfl <;> exact ⟨by decide, _, rfl, rfl, rfl⟩

/-- With XLEN 32 and DXLEN 64, the highest physical address, which a write sign-extends, is valid and is read back. -/
theorem witness_ValidAddressIsHeldExactly_narrow :
    let s := narrow [trigger (matching 0)]
    s.mayWrite (trigger (matching 0)) = true ∧ trigLegal s.cfg (trigger (matching 0)) = true ∧
    validAt s.cfg s.xlen (widen s.cfg.dxlen s.xlen 0x8000ffff) = true ∧
    (s.writeCsr .tdata2 0x8000ffff).1.readCsr .tdata2 = 0x8000ffff := by decide

/-- There 0x80010000 is the first invalid address, which `tdata2` holds sign-extended in the first trigger and zero-extended in the
second, and 0x100000000 shows 0, which is valid. -/
theorem witness_InvalidAddressStaysInvalid_narrow :
    let s := narrow []
    let p (low high : Nat) : TrigImpl := { TrigImpl.default 0x80fc with tdata2Ranges := [(low, high)] }
    (Tdata1.typ ⟨false, matching 0⟩ = 6 ∧ (matching 0).asksAddress (p 0 0) = true ∧ asksLargestNapot6 s.cfg (matching 0) 0xffffffffffff0000 = false) ∧
    (off.typ = 15 ∧ off.asksAddress (p 0 0) = true ∧ asksLargestNapot6 s.cfg off 0xffffffffffff0000 = false) ∧
    tdata2Legal s.cfg (p 0xffffffff80000000 0xffffffffffffffff) (matching 0) 0xffffffff80010000 = true ∧
    tdata2Legal s.cfg (p 0 0xffffffffff) (matching 0) 0x80010000 = true ∧
    tdata2Legal s.cfg (p 0xffffffff80000000 0xffffffffffffffff) off 0xffffffff80010000 = true ∧
    tdata2Legal s.cfg (p 0 0xffffffffff) off 0x80010000 = true ∧
    (validAt s.cfg .x32 0xffffffff80010000 = false ∧ validAddr s.cfg 0xffffffff80010000 = false) ∧
    (validAt s.cfg .x32 0x80010000 = false ∧ validAddr s.cfg 0x80010000 = false) ∧
    (s.cfg.dxlen.trunc 0xffffffff80010000 = 0xffffffff80010000 ∧ s.cfg.dxlen.trunc 0x80010000 = 0x80010000) ∧
    validAt s.cfg .x32 0xffffffffffff0000 = false ∧ validAt s.cfg .x32 0x100000000 = true :=
  ⟨by decide, by decide, by decide, by decide, by decide, by decide, by decide, by decide, by decide, by decide, by decide⟩

/-- 0x10000 is the first invalid address; without a mask 0x1ffff can be held, 0x20000 can not; with a NAPOT match 0x1ffff asks for
too large a range, 0x10000 and 0x20000 can be held. -/
theorem witness_InvalidAddressStaysInvalid :
    let cfg := { Config.default with validRanges := [(0, 0xffff)] }
    let t (op : BitVec 4) : Trigger :=
      { trigger (matching op) with impl := { TrigImpl.default 0x80fc with tdata2Ranges := [(0, 0x1ffff)] } }
    (∀ op ∈ [0, 1], (t op).tdata1.typ = 6 ∧ tdata2Legal cfg (t op).impl (t op).tdata1.view 0x10000 = true) ∧
    cfg.dxlen.trunc 0x10000 = 0x10000 ∧ validAt cfg .x32 0x10000 = false ∧ validAddr cfg 0x10000 = false ∧
    validAt cfg .x32 0x20000 = false ∧ validAddr cfg 0x20000 = false ∧
    validAt cfg .x32 0x1ffff = false ∧ tdata2Legal cfg (t 0).impl (t 0).tdata1.view 0x20000 = false ∧
    tdata2Legal cfg (t 0).impl (t 0).tdata1.view 0x1ffff = true ∧ tdata2Legal cfg (t 1).impl (t 1).tdata1.view 0x1ffff = false ∧
    tdata2Legal cfg (t 0).impl (t 0).tdata1.view 0 = true ∧ (t 0).tdata1.view.asksAddress (t 0).impl = true ∧
    refusedTdata2 cfg (t 0).impl 0 (t 0).tdata1 0 0x1ffff = false ∧
    asksLargestNapot6 cfg (t 0).tdata1.view 0xffffffff = false ∧ asksLargestNapot6 cfg (t 1).tdata1.view 0x1ffff = false := by
  decide

/-- R450: a range of 8 bytes with valid addresses only inside it, on either side of the value; and the next range, with none. Likewise
where the valid address is one of XLEN = 32, sign-extended. -/
theorem test_napot_ranges_with_valid_addresses :
    let cfg := { Config.default with validRanges := [(0x1001, 0x1002), (0x1005, 0x1006)] }
    let wide := { Config.default with dxlen := .x64, narrowXlen := true, validRanges := [(0x80000002, 0x80000004)] }
    napotMeetsAddress cfg 0x1003 = true ∧ napotMeetsAddress cfg 0x100b = false ∧
    napotMeetsAddress { cfg with validRanges := [(0x1006, 0x1006)] } 0x1003 = true ∧
    napotMeetsAddress wide 0xffffffff80000003 = true ∧ napotMeetsAddress wide 0xffffffff7ffffffb = false := by decide

/-- R443: the instruction traps; of a precise implementation's fires the mcontrol6 one of time `after` is kept as it is, the one
immediately after is not, and that of a signal reports `before`. -/
theorem test_after_outlives_a_trap :
    ({ base with dueAfter := [{ fire 0 0 with time := .after, delayed := true }, fire 1 0, fire 2 8] }).abandon.waiting =
      [{ fire 0 0 with time := .after, delayed := true }, { fire 2 8 with time := .before }] := by decide

/-- R285: a trigger that keeps its single type on a write of 0 may have type 15 or not, by another write. -/
theorem test_also_disabled :
    let p : TrigImpl := { TrigImpl.default 0x0040 with resetType := 6, disableKeepsType := true }
    let q := { p with alsoDisabled := true }
    (disabledValue Config.default q).typ = 6 ∧
    (legalizeTdata1 Config.default q 0 ⟨false, watcher⟩ 0 {} .x32 0xf0000000 true).typ = 15 ∧
    hasDisabled p = false ∧ TrigImpl.fixedType p = true ∧ TrigImpl.fixedType q = false := by decide

/-- An implementation may hard-wire the `tdata2` of an icount trigger to 0, and keep high bits out of a NAPOT value, but never a
range with a valid address in it. -/
theorem test_excluded_values :
    let cfg := { Config.default with validRanges := [(0, 0xffff)] }
    let p : TrigImpl := { TrigImpl.default 0x80fc with
      tdata2Excluded := [⟨typeMask, 0x3000000000000000, (1, 0xffffffff)⟩, ⟨typeMask, 0x6000000000000000, (0, 0xffffffff)⟩] }
    tdata2Legal cfg p (.icount { u := true }) 0 = true ∧ tdata2Legal cfg p (.icount { u := true }) 5 = false ∧
    tdata2Legal cfg p (matching 1) 0x1003 = true ∧ tdata2Legal cfg p (matching 1) 0x11003 = false ∧
    tdata2Legal cfg p (matching 1) 0 = true ∧ tdata2Legal cfg p (matching 1) (napot6Largest cfg p) = true ∧
    tdata2Legal cfg p (matching 0) 0xffff = true ∧ tdata2Legal cfg p (matching 0) 0x10000 = false ∧
    tdata2Legal cfg p off 5 = true := by decide

/-- An icount trigger without `textra`, and a combination of selects that no type supports. -/
theorem test_excluded_textra :
    let p : TrigImpl := { TrigImpl.default 0x80fc with noTextra := [3], tdata3Excluded := [⟨0, 0, 3, 2⟩] }
    tdata3Legal Config.default p (.icount { u := true }) {} = true ∧
    tdata3Legal Config.default p (.icount { u := true }) { svalue := 5 } = false ∧
    tdata3Legal Config.default p watcher { svalue := 5 } = true ∧
    tdata3Legal Config.default p watcher { sselect := 2 } = false ∧ tdata3Legal Config.default p off { svalue := 5 } = true ∧
    refusedTdata3 p 0 ⟨false, watcher⟩ {} { svalue := 5 } = false := by decide

/-- Under `select` = 1 a range of a supported size is held whatever is excluded. -/
theorem test_napot_data_is_held :
    tdata2Legal Config.default
      { TrigImpl.default 0x80fc with tdata2Excluded := [⟨0, 0, (0, 0xffffffff)⟩] }
      (.mcontrol6 { select := true, matchOp := 1, load := true }) 0xdeadbe03 = true := by decide

theorem witness_DisabledTriggerTakesAnySupportedValue :
    Tdata1.typ ⟨false, off⟩ = 15 ∧ Tdata1.fieldsLegal Config.default good ⟨false, watcher⟩ = true ∧
    tdata2Legal Config.default good watcher 0xffffffff = true ∧
    tdata3Legal Config.default good watcher { sselect := 2, svalue := 0xffff } = true ∧
    Tdata1.fieldsLegal Config.default good ⟨false, .itrigger {}⟩ = true ∧
    tdata2Legal Config.default good (.itrigger { m := true }) 0xffffffff = true := by decide

theorem witness_ReservedSelectsNeverStored : base.cfg.hasH = false := by decide

/-- The least and the greatest legal value. -/
theorem witness_NarrowTextraWriteClearsHighBits :
    base.xlen = .x32 ∧ base.trigs[base.tselect.toNat]?.isSome = true ∧ (trigger watcher).tdata1.view.hasTextra = true ∧
    trigLegal base.cfg (trigger watcher) = true ∧
    (∀ v ∈ [0, 0xfe0ffffe],
      tdata3Legal base.cfg (trigger watcher).impl (trigger watcher).tdata1.view (Textra.ofImage .x32 v) = true ∧
      refusedTdata3 (trigger watcher).impl 0 (trigger watcher).tdata1 (trigger watcher).tdata3 (Textra.ofImage .x32 v) = false) := by
  refine ⟨rfl, rfl, rfl, rfl, ?_⟩
  simp only [List.mem_cons, List.not_mem_nil, or_false, forall_eq_or_imp, forall_eq]
  exact ⟨⟨rfl, rfl⟩, rfl, rfl⟩

theorem witness_MaskedMatches :
    (∀ c ∈ [0xffffffff#64], Xlen.trunc .x32 c = c) ∧ Xlen.trunc .x32 0xfff01230 = 0xfff01230 :=
  ⟨by simp [Xlen.trunc], rfl⟩

theorem witness_NegatedMatches :
    matchOp .x32 4 0 [0x1000] 0x1000 = some true ∧ matchOp .x32 4 1 [0x1007] 0x1003 = some true ∧
    matchOp .x32 4 4 [0x1240] 0xfff01230 = some false ∧ matchOp .x32 4 5 [0x12ab0000] 0xff001200 = some true := by decide

/-- The largest supported range, and the next one; with the widest `maskmax` also the largest that leaves a bit to compare, and
the next (vectors M10 and M11). -/
theorem witness_NapotMatches :
    (∀ z t2, (z, t2) ∈ [(3, 0x1007#64), (4, 0x100f#64), (30, 0x3fffffff#64), (31, 0x7fffffff#64)] →
      (∀ b, b < z → t2.getLsbD b = true) ∧ t2.getLsbD z = false ∧ z < Xlen.bits .x32) ∧
    (3 + 1 ≤ 4 ∧ 3 + 1 < Xlen.bits .x32) ∧ ¬(4 + 1 ≤ 4 ∧ 4 + 1 < Xlen.bits .x32) ∧
    (30 + 1 ≤ 63 ∧ 30 + 1 < Xlen.bits .x32) ∧ ¬(31 + 1 ≤ 63 ∧ 31 + 1 < Xlen.bits .x32) := by
  refine ⟨?_, by decide, by decide, by decide, by decide⟩
  intro z t2 h
  simp only [List.mem_cons, List.not_mem_nil, or_false, Prod.mk.injEq] at h
  rcases h with ⟨rfl, rfl⟩ | ⟨rfl, rfl⟩ | ⟨rfl, rfl⟩ | ⟨rfl, rfl⟩ <;> decide

theorem witness_CacheOperationsNeedSizeAndSelectZero :
    let t : Trigger := { trigger (matching 0) with tdata2 := 0x1000 }
    (machine [t] .u).ownVerdict 0 t (.cacheOp 0x1008 true) .accessBefore ≠ .no := by decide

theorem witness_ByteMaskSelectsBytes : Textra.sselect { sselect := 1, svalue := 0xab, sbytemask := 1 } = 1 := by decide

theorem witness_NothingFiresInDebugMode : (base.setMode .debug).mode = .debug := by decide

theorem witness_ProtectionSparesMachineHandlers :
    (trigger (.etrigger { u := true })).tdata1.action = 0 ∧
    ({ base with cfg := { Config.default with reentrancy := .ieGating } } : State).cfg.reentrancy = .ieGating ∧
    ({ base with cfg := { Config.default with reentrancy := .tcontrol } } : State).cfg.reentrancy = .tcontrol ∧
    ({ base with cfg := { Config.default with reentrancy := .tcontrol } } : State).cfg.hasTcontrol = true := by decide

theorem witness_SignalsDoNotStopTheHart : ∀ d ∈ [fire 0 2, fire 1 9], d.action ≠ 0 ∧ d.action ≠ 1 := by decide

theorem witness_HitIsSetForAll :
    ([fire 0 0, fire 1 0].map Due.trig).Nodup ∧ fire 0 0 ∈ [fire 0 0, fire 1 0] ∧
    (machine [trigger watcher, trigger watcher]).trigs[(fire 0 0).trig]? = some (trigger watcher) ∧
    (trigger watcher).tdata1.typ = (fire 0 0).tdata1.typ := by decide

theorem witness_BreakpointIsTakenOnce :
    (∃ d ∈ [fire 0 0, fire 1 2], d.action = 0 ∧ d.tvals ≠ []) ∧ ∀ d ∈ [fire 0 0, fire 1 2], d.action ≠ 1 := by decide

theorem witness_DebugEntryIsNoTrap :
    (∃ d ∈ [fire 0 1, fire 1 0], d.action = 1) ∧ base.cfg.bothActions = .debugOnly ∧
    (∃ d ∈ [fire 0 1, fire 1 2], d.action = 1) ∧ ∀ d ∈ [fire 0 1, fire 1 2], d.action ≠ 0 := by decide

theorem witness_BreakpointDelegation :
    ({ base with cfg := { Config.default with reentrancy := .tcontrol } } : State).cfg.reentrancy = .tcontrol ∧
    base.cfg.reentrancy ≠ .tcontrol ∧ base.cfg.hasS = true ∧ base.host.medeleg.getLsbD 3 = false ∧
    (HostCsrs.medeleg { medeleg := 8, hedeleg := 8 }).getLsbD 3 = true ∧
    (HostCsrs.hedeleg { medeleg := 8, hedeleg := 8 }).getLsbD 3 = true ∧ full.hasH = true ∧ full.hasS = true ∧
    (machine [] .s).mode = .s ∧ (machine [] .u).mode = .u ∧ (machine [] .vs).mode = .vs ∧ (machine [] .vu).mode = .vu := by
  decide

theorem witness_TcontrolIsStacked : base.cfg.hasTcontrol = true ∧ Handler.s ≠ .m ∧ Handler.vs ≠ .m := by decide

/-- An icount trigger of the machine in U-mode, with a count. -/
def counting (c : BitVec 14) (pending : Bool := false) : Trigger := trigger (.icount { count := c, u := true, pending := pending })

/-- Both ways to match, with `count` 0, 1, 2, and at its highest. -/
theorem witness_CountReachesZeroAndStays :
    ∀ c ∈ [0#14, 1#14, 2#14, 0x3fff#14],
      let s := machine [counting c] .u
      s.trigs[0]? = some (counting c) ∧ (counting c).tdata1.enabledIn s.mode = true ∧ s.unblocked 0 = true ∧
      s.holdsBack (counting c).tdata1 s.mode = false ∧ s.textraOk (counting c) = true ∧
      (s.afterHostTrap .m false 2 0).textraOk (counting c) = true := by
  intro c h
  simp only [List.mem_cons, List.not_mem_nil, or_false] at h
  rcases h with rfl | rfl | rfl | rfl <;> exact ⟨rfl, rfl, rfl, rfl, rfl, rfl⟩

/-- An icount that is pending, with an action and a count, hard-wired or not. -/
def pendingCount (a : BitVec 6) (c : BitVec 14) (hard : Bool) : Trigger :=
  { trigger (.icount { u := true, pending := true, action := a, count := c }) true with
    impl := { TrigImpl.default 0x80fc with countHardwired := hard } }

/-- Each kind of action, the count at 0 and above, both kinds of count, and beside another trigger. -/
theorem witness_PendingCountFires :
    ∀ a ∈ [0#6, 1#6, 2#6], ∀ c ∈ [0#14, 1#14], ∀ hard,
      let s := (machine [trigger watcher, pendingCount a c hard] .u).withFetchWord 32 0x13
      s.execNext = true ∧ s.trigs[1]? = some (pendingCount a c hard) ∧ (pendingCount a c hard).tdata1.enabledIn s.mode = true ∧
      s.mayFire (pendingCount a c hard).tdata1 = true ∧ s.cfg.precise = true ∧ s.cfg.bothActions = .debugOnly := by
  intro a ha c hc hard
  simp only [List.mem_cons, List.not_mem_nil, or_false] at ha hc
  rcases ha with rfl | rfl | rfl <;> rcases hc with rfl | rfl <;> exact ⟨rfl, rfl, rfl, rfl, rfl, rfl⟩

/-- The machine with that trigger, before an instruction. -/
def pendingMachine (a : BitVec 6) (c : BitVec 14) (hard : Bool) : State :=
  (machine [pendingCount a c hard] .u).withFetchWord 32 0x13

theorem witness_PendingCountFires_goes : ∃ a, (pendingMachine 2 0 false).boundary [] = .go a := ⟨_, rfl⟩
theorem witness_PendingCountFires_stops : ∃ a, (pendingMachine 0 1 false).boundary [] = .stop a := ⟨_, rfl⟩
theorem witness_PendingCountFires_enters : ∃ a, (pendingMachine 1 1 true).boundary [] = .stop a := ⟨_, rfl⟩

/-- Before an interrupt, and where nothing is presented, the boundary goes on and leaves it pending. -/
theorem witness_PendingCountFires_stays :
    ∀ f ∈ [[HostItem.interrupt 7 false .m], []],
      let s := (machine [pendingCount 0 1 false] .u).setFeed f
      s.execNext = false ∧ s.waiting = [] ∧ ∃ a, s.boundary [] = .go a := by
  intro f h
  simp only [List.mem_cons, List.not_mem_nil, or_false] at h
  rcases h with rfl | rfl <;> exact ⟨rfl, rfl, _, rfl⟩

theorem witness_BoundaryBreakpointWritesZeroTval :
    let s := (machine [counting 0 true] .u).withFetchWord 32 0x13
    ∃ t, s.waiting = [] ∧ s.boundary [] = .stop t ∧ t.mode ≠ .debug := by
  refine ⟨_, rfl, rfl, by decide⟩

/-- The range watch of vector M27, at a store in the range. -/
theorem witness_ChainFiresOnlyWhole :
    let e : Event := .store 0x2fff 8 0 false true
    let s := machine [{ trigger (.mcontrol { matchOp := 2, u := true, store := true, chain := true }) with tdata2 := 0x2000 },
      { trigger (.mcontrol { matchOp := 3, u := true, store := true }) with tdata2 := 0x3000 }] .u
    ∃ d, d ∈ (s.noted e .accessBefore (s.newMatches e .accessBefore)).completed e .accessBefore (s.newMatches e .accessBefore) ∧
      d.trig = 1 :=
  ⟨_, List.mem_singleton.mpr rfl, rfl⟩

theorem witness_ResetMeetsTheInvariant : wf Config.default TrigImpl.defaults = true ∧ wf full TrigImpl.defaults = true := by
  decide

/-- Every type as the reset type, with 0 a legal `action` and `match`, and type 2 also with neither 0 legal nor `timing` 0. -/
theorem witness_AfterResetNothingMatches :
    (∀ n ∈ [2, 3, 4, 5, 6, 7, 15], let p : TrigImpl := { TrigImpl.default 0x80fc with resetType := n }
      (State.resetWith Config.default [p]).trigs[0]? = some (resetTrigger Config.default p) ∧
      (resetTrigger Config.default p).tdata1.typ = n ∧ wfTrig Config.default p = true) ∧
    (∀ v ∈ [(TrigImpl.default 0).mcontrol, (TrigImpl.default 0).mcontrol6],
      actionLegal Config.default v false 0 = true ∧ matchLegal v true 0 = true) ∧
    let q : TrigImpl := { TrigImpl.default 0x80fc with
      resetType := 2, timing0 := 0xfffe, mcontrol := ⟨[1, 8], [], [1, 2], true, true⟩ }
    (resetTrigger Config.default q).tdata1.view = .mcontrol { maskmax := 4, timing := true, action := 8, matchOp := 2 } ∧
    wfTrig Config.default q = true := by decide

theorem witness_StepKeepsTheInvariant : base.invariant = true ∧ ∃ t, step base = .next t := by
  exact ⟨by decide, next_of_isNext (by decide)⟩

theorem witness_StepKeepsTheGuard :
    let s := { machine [trigger watcher true, trigger watcher true] .debug with feed := presents 0x7a1312f3 }
    s.cfg.ignoreDmodeSetAfterChain = true ∧ guarded s.trigs = true ∧ ∃ t, step s = .next t := by
  exact ⟨by decide, by decide, next_of_isNext (by decide)⟩

theorem witness_DebuggersTriggersAreKept :
    let s := { machine [trigger watcher true] with feed := presents 0x7a1312f3 }
    s.mode ≠ .debug ∧ ∃ t, step s = .next t := by
  exact ⟨by decide, next_of_isNext (by decide)⟩

theorem witness_LowerModesReachNothing :
    let s (md : Mode) := { machine [trigger watcher] md with feed := presents 0x5a829073 }
    (∀ md ∈ [Mode.s, .u, .vs, .vu], (s md).mode.isMachine = false) ∧ (s .u).mode.isUser = true ∧ (s .vs).mode ≠ .s ∧
    (∃ t, step (s .s) = .next t) ∧ (∃ t, step (s .vs) = .next t) ∧ ∃ t, step (s .u) = .next t := by
  exact ⟨by decide, by decide, by decide, next_of_isNext (by decide), next_of_isNext (by decide), next_of_isNext (by decide)⟩

end Sys2Proof.Tests
end

section
/-! What a CSR write can do to the triggers (spec/10_state.md R23): each write to a `tdata` register either leaves the state
as it is or stores into the selected trigger, and what it stores is that register. -/

namespace Sys2Proof.Machine

/-! ### The outcomes of a write to each `tdata` register -/

/-- A write to `tdata1` is ignored, or it stores the new value in the selected trigger. -/
theorem State.writeTdata1_cases (s : State) (v : Word) :
    s.writeTdata1 v = (s, none) ∨
      ∃ t n, s.selected = some t ∧ s.newTdata1 s.tselect.toNat t v (s.mode == .debug) = some n ∧
        s.writeTdata1 v = (s.storeTdata1 s.tselect.toNat n, some s.tselect.toNat) := by
  unfold State.writeTdata1
  split
  · exact .inl rfl
  case h_2 t selected =>
    split
    case h_1 n stored => exact .inr ⟨t, n, selected, stored, rfl⟩
    · exact .inl rfl

/-- A write to `tdata2` is ignored, or the writer may write the selected trigger and the new value is stored there. -/
theorem State.writeTdata2_cases (s : State) (v : Word) :
    s.writeTdata2 v = s ∨
      ∃ t, s.selected = some t ∧ s.mayWrite t = true ∧
        s.writeTdata2 v = s.modifyTrig s.tselect.toNat fun u =>
          { u with tdata2 := s.newTdata2 s.tselect.toNat t v } := by
  unfold State.writeTdata2
  split
  · exact .inl rfl
  case h_2 t selected =>
    split
    case isTrue may => exact .inr ⟨t, selected, may, rfl⟩
    · exact .inl rfl

/-- A write to `tdata3` is ignored, or the writer may write the selected trigger and the new value is stored there. -/
theorem State.writeTdata3_cases (s : State) (v : Word) :
    s.writeTdata3 v = s ∨
      ∃ t, s.selected = some t ∧ s.mayWrite t = true ∧
        s.writeTdata3 v = s.modifyTrig s.tselect.toNat fun u =>
          { u with tdata3 := s.newTdata3 s.tselect.toNat t v, tdata3Sext := s.writesSext t } := by
  unfold State.writeTdata3
  split
  · exact .inl rfl
  case h_2 t selected =>
    split
    case isTrue may => exact .inr ⟨t, selected, may, rfl⟩
    · exact .inl rfl

/-! ### What a write reaches -/

/-- Trigger `u` is `t` with at most the register named by `c` different. The held action is none of the registers. -/
structure Trigger.SameButReg (c : TmCsr) (t u : Trigger) : Prop where
  impl : u.impl = t.impl
  tdata1 : c ≠ .tdata1 → u.tdata1 = t.tdata1
  tdata2 : c ≠ .tdata2 → u.tdata2 = t.tdata2
  tdata3 : c ≠ .tdata3 → u.tdata3 = t.tdata3 ∧ u.tdata3Sext = t.tdata3Sext

theorem Trigger.SameButReg.refl (c : TmCsr) (t : Trigger) : t.SameButReg c t :=
  ⟨rfl, fun _ => rfl, fun _ => rfl, fun _ => ⟨rfl, rfl⟩⟩

theorem State.storeTdata1_trigs (s : State) (i : Nat) (n : Tdata1) :
    (s.storeTdata1 i n).trigs = (s.modifyTrig i fun t => { t with tdata1 := n, extHeld := false }).trigs := rfl

/-- The triggers after a write: those from before, or with the written register of the selected one changed. -/
theorem State.writeCsr_trigs_cases (s : State) (c : TmCsr) (v : Word) :
    (s.writeCsr c v).1.trigs = s.trigs ∨
      ∃ g : Trigger → Trigger, (s.writeCsr c v).1.trigs = (s.modifyTrig s.tselect.toNat g).trigs ∧
        ∀ t : Trigger, t.SameButReg c (g t) := by
  cases c with
  | tdata1 =>
    rcases s.writeTdata1_cases v with ignored | ⟨_, n, _, _, stored⟩
    · exact .inl (congrArg (fun r => r.1.trigs) ignored)
    · have trigs := (congrArg (fun r => r.1.trigs) stored).trans (s.storeTdata1_trigs _ n)
      exact .inr ⟨_, trigs, fun _ => ⟨rfl, (absurd rfl ·), fun _ => rfl, fun _ => ⟨rfl, rfl⟩⟩⟩
  | tdata2 =>
    rcases s.writeTdata2_cases v with ignored | ⟨_, _, _, stored⟩
    · exact .inl (congrArg State.trigs ignored)
    · exact .inr ⟨_, congrArg State.trigs stored, fun _ => ⟨rfl, fun _ => rfl, (absurd rfl ·), fun _ => ⟨rfl, rfl⟩⟩⟩
  | tdata3 =>
    rcases s.writeTdata3_cases v with ignored | ⟨_, _, _, stored⟩
    · exact .inl (congrArg State.trigs ignored)
    · exact .inr ⟨_, congrArg State.trigs stored, fun _ => ⟨rfl, fun _ => rfl, fun _ => rfl, (absurd rfl ·)⟩⟩
  | tselect | tinfo | tcontrol | scontext | mscontext | mcontext | hcontext => exact .inl rfl

/-- What a write leaves at each index: the trigger itself where it is not selected, and where it is, all but the written
register. -/
theorem State.writeCsr_get (s : State) (c : TmCsr) (v : Word) (i : Nat) (t : Trigger) (ht : s.trigs[i]? = some t) :
    ∃ u, (s.writeCsr c v).1.trigs[i]? = some u ∧ (i ≠ s.tselect.toNat → u = t) ∧ t.SameButReg c u := by
  rcases s.writeCsr_trigs_cases c v with same | ⟨g, modified, reach⟩
  · exact ⟨t, same ▸ ht, fun _ => rfl, .refl c t⟩
  · rw [modified, State.modifyTrig_get, ht]
    by_cases selected : i = s.tselect.toNat
    · exact ⟨g t, by simp [selected], (absurd selected ·), reach t⟩
    · exact ⟨t, by simp [selected], fun _ => rfl, .refl c t⟩

/-- Settles O20: at each index a write leaves a trigger that differs in the written register of the selected trigger at most. -/
theorem writesReachOneRegister : Obligations.WritesReachOneRegister := by
  intro s c v i t ht
  obtain ⟨u, hu, unselected, same⟩ := s.writeCsr_get c v i t ht
  exact ⟨u, hu, same.impl, unselected, same.tdata1, same.tdata2, same.tdata3⟩

end Sys2Proof.Machine
end

section
/-! What the `tdata2` of an address match without a mask holds (spec/20_memory.md R202, R203): a valid address, as a write of any
XLEN stores it, is an address of the DXLEN-bit register; a plain address match must hold that, whether the trigger is disabled or
not; and reading shows the XLEN bits that were written. -/

namespace Sys2Proof.Machine

/-! ### A written value and the XLEN bits it shows -/

/-- The current XLEN is DXLEN, or it is 32 on a hart that has such a mode (spec/00_scope.md R8). -/
theorem State.xlen_cases (s : State) : s.xlen = s.cfg.dxlen ∨ s.xlen = .x32 ∧ s.cfg.narrowXlen = true := by
  unfold State.xlen State.xlenIn
  cases s.cfg.dxlen with
  | x32 => exact .inl rfl
  | x64 =>
    cases s.cfg.narrowXlen with
    | false => exact .inl rfl
    | true => cases s.host.xlens.of s.mode <;> simp

/-- Where no bit is to be filled, widening only cuts to the width. -/
theorem widen_self (x : Xlen) (v : Word) : widen x x v = x.trunc v := by cases x <;> rfl

/-- The low half of a value sign-extended from 32 bits is the one it was made from. -/
theorem low_of_signExtend (v : Word) : ((v.extractLsb' 0 32).signExtend 64).extractLsb' 0 32 = v.extractLsb' 0 32 := by
  apply BitVec.eq_of_getLsbD_eq
  intro i hi
  have wide : i < 64 := by omega
  simp only [BitVec.getLsbD_extractLsb', BitVec.getLsbD_signExtend, hi, wide, Nat.zero_add, if_true, decide_true,
    Bool.true_and]

/-- Sign-extending to DXLEN keeps the low XLEN bits. -/
theorem trunc_widen (d x : Xlen) (v : Word) (hx : x = d ∨ x = .x32) : x.trunc (widen d x v) = x.trunc v := by
  rcases hx with rfl | rfl
  · rw [widen_self, Xlen.trunc_trunc]
  · cases d with
    | x32 => exact Xlen.trunc_trunc .x32 v
    | x64 => exact congrArg (BitVec.setWidth 64) (low_of_signExtend v)

theorem widen_widen (d x : Xlen) (v : Word) : widen d x (widen d x v) = widen d x v := by
  match d, x with
  | .x64, .x64 => rfl
  | .x64, .x32 => exact congrArg (BitVec.signExtend 64) (low_of_signExtend v)
  | .x32, _ => exact Xlen.trunc_trunc .x32 v

/-- What a write stores is an address of the register if its XLEN bits are a valid address, a virtual or a physical one
(spec/20_memory.md R203). -/
theorem isAddress_widen (cfg : Config) (x : Xlen) (v : Word) (hx : x = cfg.dxlen ∨ x = .x32 ∧ cfg.narrowXlen = true)
    (valid : validAt cfg x (widen cfg.dxlen x v) = true) : isAddress cfg (widen cfg.dxlen x v) = true := by
  unfold validAt at valid
  rw [widen_widen, Bool.or_eq_true] at valid
  rcases valid with virt | phys
  · simp [isAddress, virt]
  · rcases hx with rfl | ⟨rfl, narrow⟩
    · rw [widen_self, Xlen.trunc_trunc] at phys
      simp [isAddress, widen_self, phys]
    · simp [isAddress, validNarrow, narrow, widen_widen, phys]

/-! ### Plain address matches -/

theorem plainAddress_iff (select : Bool) (op : BitVec 4) :
    plainAddress select op = true ↔ select = false ∧ (op.toNat = 0 ∨ op.toNat = 2 ∨ op.toNat = 3 ∨ op.toNat = 8) := by
  simp [plainAddress, ← BitVec.toNat_inj, or_assoc]

/-- The view matches addresses, and without a mask. -/
def View.isPlainAddress : View → Bool
  | .mcontrol f => plainAddress f.select f.matchOp
  | .mcontrol6 f => plainAddress f.select f.matchOp
  | .icount _ => false
  | .itrigger _ => false
  | .etrigger _ => false
  | .tmext _ => false
  | .disabled _ => false

/-- A plain match is none of the two that ask for a NAPOT range. -/
theorem View.isNapot_of_plain (view : View) (plain : view.isPlainAddress = true) : view.isNapot = false := by
  cases view with
  | mcontrol f | mcontrol6 f =>
    obtain ⟨-, op⟩ := (plainAddress_iff _ _).mp plain
    simp only [View.isNapot, Bool.or_eq_false_iff, beq_eq_false_iff_ne]
    constructor <;> bv_omega
  | icount | itrigger | etrigger | tmext | disabled => rfl

/-- An access selection that matches addresses without a mask is that of such a view. -/
theorem Trigger.isPlainAddress_of_accessSel (t : Trigger) (x : Xlen) (a : AccessSel) (sel : t.accessSel x = some a)
    (address : a.select = false) (op : a.matchOp = 0 ∨ a.matchOp = 2 ∨ a.matchOp = 3 ∨ a.matchOp = 8) :
    t.tdata1.view.isPlainAddress = true := by
  unfold Trigger.accessSel at sel
  cases view : t.tdata1.view with
  | mcontrol f =>
    simp only [view, Option.some.injEq] at sel
    subst sel
    exact (plainAddress_iff _ _).mpr ⟨address, op⟩
  | mcontrol6 f =>
    simp only [view, Option.some.injEq] at sel
    subst sel
    exact (plainAddress_iff _ _).mpr ⟨address, op⟩
  | icount | itrigger | etrigger | tmext | disabled => simp [view] at sel

/-- Nothing is masked out of an address. -/
theorem tdata2Mask_of_plain (p : TrigImpl) (view : View) (plain : view.isPlainAddress = true) : tdata2Mask p view = none := by
  cases view with
  | mcontrol | icount | mcontrol6 | tmext | disabled => rfl
  | itrigger | etrigger => cases plain

/-! ### What they hold -/

/-- `tdata2` is required to hold every address. -/
theorem mustHold_of_plain (cfg : Config) (p : TrigImpl) (view : View) (v : Word) (plain : view.isPlainAddress = true)
    (addr : isAddress cfg v = true) : mustHold cfg p view v = true := by
  cases view with
  | mcontrol f | mcontrol6 f =>
    have plain : plainAddress f.select f.matchOp = true := plain
    simp [mustHold, plain, addr]
  | icount | itrigger | etrigger | tmext | disabled => cases plain

theorem tdata2Base_of_plain (cfg : Config) (p : TrigImpl) (view : View) (v : Word) (plain : view.isPlainAddress = true)
    (addr : isAddress cfg v = true) : tdata2Base cfg p view v = true := by
  cases view with
  | mcontrol f | mcontrol6 f =>
    simp [tdata2Base, View.isNapot_of_plain _ plain, holds, addr]
  | icount | itrigger | etrigger | tmext | disabled => cases plain

/-- No exclusion takes an address away from the type. -/
theorem heldByType_of_plain (cfg : Config) (p : TrigImpl) (view : View) (v : Word) (plain : view.isPlainAddress = true)
    (addr : isAddress cfg v = true) : heldByType cfg p view v = true := by
  simp [heldByType, tdata2Base_of_plain cfg p view v plain addr, mustHold_of_plain cfg p view v plain addr]

/-- A trigger that supports a plain address match can hold every address while it is disabled (spec/40_csr_access.md R298). -/
theorem tdata2LegalForSome_of_plain (cfg : Config) (p : TrigImpl) (dmode : Bool) (view : View) (v : Word)
    (plain : view.isPlainAddress = true) (fields : view.fieldsLegal cfg p dmode = true) (addr : isAddress cfg v = true) :
    tdata2LegalForSome cfg p v = true := by
  cases view with
  | mcontrol f =>
    simp only [View.fieldsLegal, Bool.and_eq_true] at fields
    obtain ⟨⟨⟨type, -⟩, op⟩, -⟩ := fields
    have held := heldByMatch_of cfg p p.mcontrol _ (fun sel op => .mcontrol { select := sel, matchOp := op }) f.select f.matchOp
      v op (heldByType_of_plain cfg p _ v plain addr)
    simp only [tdata2LegalForSome, type, held, Bool.true_and, Bool.true_or]
  | mcontrol6 f =>
    simp only [View.fieldsLegal, Bool.and_eq_true] at fields
    obtain ⟨⟨⟨type, -⟩, op⟩, -⟩ := fields
    have held := heldByMatch_of cfg p p.mcontrol6 _ (fun sel op => .mcontrol6 { select := sel, matchOp := op }) f.select
      f.matchOp v op (heldByType_of_plain cfg p _ v plain addr)
    simp only [tdata2LegalForSome, type, held, Bool.true_and, Bool.true_or, Bool.or_true]
  | icount | itrigger | etrigger | tmext | disabled => cases plain

/-- Under a plain address match every address is legal in `tdata2`, whether or not the match also counts as the disabled form of a
trigger of one type (spec/40_csr_access.md R287). -/
theorem tdata2Legal_of_plain (cfg : Config) (p : TrigImpl) (dmode : Bool) (view : View) (v : Word)
    (plain : view.isPlainAddress = true) (fields : view.fieldsLegal cfg p dmode = true) (addr : isAddress cfg v = true) :
    tdata2Legal cfg p view v = true := by
  unfold tdata2Legal
  split
  · exact tdata2LegalForSome_of_plain cfg p dmode view v plain fields addr
  · simp [tdata2Base_of_plain cfg p view v plain addr, mustHold_of_plain cfg p view v plain addr]

/-- A write of an address to the `tdata2` of a plain address match stores it as it is. -/
theorem legalizeTdata2_of_plain (cfg : Config) (p : TrigImpl) (i : Nat) (d : Tdata1) (x : Xlen) (old v : Word)
    (plain : d.view.isPlainAddress = true) (fields : d.fieldsLegal cfg p = true) (addr : isAddress cfg v = true) :
    legalizeTdata2 cfg p i d x old v = v :=
  legalizeTdata2_legal cfg p i d x old v (tdata2Mask_of_plain p d.view plain)
    (tdata2Legal_of_plain cfg p d.dmode d.view v plain fields addr)
    (refusedTdata2_mustHold cfg p i d old v (.inl (mustHold_of_plain cfg p d.view v plain addr)))

/-! ### A write read back -/

/-- Reading `tdata2` after a write to it shows the XLEN bits of what the write stores. -/
theorem State.readCsr_writeCsr_tdata2 (s : State) (t : Trigger) (v : Word) (ht : s.trigs[s.tselect.toNat]? = some t)
    (may : s.mayWrite t = true) :
    (s.writeCsr .tdata2 v).1.readCsr .tdata2 = s.xlen.trunc (s.newTdata2 s.tselect.toNat t v) := by
  have written : (s.writeCsr .tdata2 v).1 =
      s.modifyTrig s.tselect.toNat fun u => { u with tdata2 := s.newTdata2 s.tselect.toNat t v } := by
    simp [State.writeCsr, State.writeTdata2, State.selected, ht, may]
  simp [written, State.readCsr, State.selected, State.modifyTrig_get, ht]

theorem trigLegal_fieldsLegal (cfg : Config) (t : Trigger) (h : trigLegal cfg t = true) :
    t.tdata1.fieldsLegal cfg t.impl = true := by
  simp only [trigLegal, Bool.and_eq_true] at h
  obtain ⟨⟨⟨-, fields⟩, -⟩, -⟩ := h
  exact fields

/-- Settles O31: what the write stores is an address that a plain address match must hold, so it is stored as it is, and its low XLEN
bits are the ones that were written. -/
theorem validAddressIsHeldExactly : Obligations.ValidAddressIsHeldExactly := by
  rintro s t v ht may legal fits ⟨a, sel, address, op⟩ valid
  have plain := t.isPlainAddress_of_accessSel s.xlen a sel address op
  have addr := isAddress_widen s.cfg s.xlen v s.xlen_cases valid
  have stored : s.newTdata2 s.tselect.toNat t v = widen s.cfg.dxlen s.xlen v :=
    legalizeTdata2_of_plain s.cfg t.impl _ t.tdata1 s.xlen t.tdata2 _ plain (trigLegal_fieldsLegal s.cfg t legal) addr
  calc (s.writeCsr .tdata2 v).1.readCsr .tdata2
    _ = s.xlen.trunc (widen s.cfg.dxlen s.xlen v) := by rw [s.readCsr_writeCsr_tdata2 t v ht may, stored]
    _ = s.xlen.trunc v := trunc_widen _ _ v (s.xlen_cases.imp id And.left)
    _ = v := fits

end Sys2Proof.Machine
end

section
/-! What a write to a context register and to `tinfo` does (spec/40_csr_access.md R308, R310): a context keeps the implemented low
bits of the value, whichever name it is written by; `tinfo` keeps what it has, so that an instruction that writes it is only
counted. -/

namespace Sys2Proof.Machine

/-! ### The contexts -/

theorem Xlen.trunc_and (x : Xlen) (v w : Word) : x.trunc (v &&& w) = x.trunc v &&& w := by
  cases x with
  | x32 =>
    apply BitVec.eq_of_getLsbD_eq
    intro i _
    simp only [Xlen.trunc, BitVec.getLsbD_setWidth, BitVec.getLsbD_extractLsb', BitVec.getLsbD_and, Nat.zero_add,
      Bool.and_assoc]
  | x64 => rfl

theorem toNat_lowOnes (n : Nat) : (lowOnes n).toNat = 2 ^ min n 64 - 1 := by
  rw [lowOnes, BitVec.toNat_ofNat]
  rcases Nat.lt_or_ge n 64 with narrow | wide
  · have pow : 2 ^ n < 2 ^ 64 := Nat.pow_lt_pow_right (by decide) narrow
    rw [Nat.min_eq_left narrow.le, Nat.mod_eq_of_lt (by omega)]
  · obtain ⟨q, multiple⟩ : 2 ^ 64 ∣ 2 ^ n := Nat.pow_dvd_pow 2 wide
    have pos : 0 < 2 ^ n := Nat.two_pow_pos n
    rw [Nat.min_eq_right wide]
    omega

/-- Keeping the low bits of a word is taking the remainder. -/
theorem toNat_and_lowOnes (v : Word) (n : Nat) : (v &&& lowOnes n).toNat = v.toNat % 2 ^ min n 64 := by
  rw [BitVec.toNat_and, toNat_lowOnes, Nat.and_two_pow_sub_one_eq_mod]

/-- Settles O23: both names of a context store the implemented bits of the value in the one register, and both read it. -/
theorem contextWritesReachTheOneValue : Obligations.ContextWritesReachTheOneValue := by
  intro s c v fits
  have held (n : Nat) : (s.xlen.trunc (v &&& lowOnes n)).toNat = v.toNat % 2 ^ min n 64 := by
    rw [Xlen.trunc_and, fits, toNat_and_lowOnes]
  constructor
  · rintro (rfl | rfl) d (rfl | rfl)
    all_goals exact held s.cfg.scontextBits
  · rintro (rfl | rfl) d (rfl | rfl)
    all_goals exact held s.cfg.mcontextBits

/-! ### `tinfo` -/

/-- M-mode and Debug Mode may access every register that exists (spec/40_csr_access.md R271). -/
theorem State.permission_of_isMachine (s : State) (c : TmCsr) (present : c.existsIn s.cfg = true)
    (machine : s.mode.isMachine = true) : s.permission c = .allowed := by
  rw [State.permission, if_pos present, State.permissionByMode]
  cases mode : s.mode with
  | m | debug => rfl
  | s | u | vs | vu => rw [mode] at machine; cases machine

theorem Trigger.sameButCount_refl (t : Trigger) : t.sameButCount t :=
  ⟨rfl, rfl, rfl, rfl, rfl, rfl, fun _ => rfl, fun f view => ⟨f.count, f.pending, view⟩⟩

theorem Icount.counted_eq (p : TrigImpl) (f : Icount) : ∃ c b, f.counted p = { f with count := c, pending := b } := by
  unfold Icount.counted
  split
  · exact ⟨_, f.pending, rfl⟩
  · split
    · exact ⟨_, _, rfl⟩
    · exact ⟨f.count, f.pending, rfl⟩

theorem Icount.selfWritten_eq (was : BitVec 14) (free : Bool) (f : Icount) :
    ∃ c b, f.selfWritten was free = { f with count := c, pending := b } := by
  unfold Icount.selfWritten
  split
  · exact ⟨f.count, _, rfl⟩
  · exact ⟨f.count, f.pending, rfl⟩

/-- Counting an instruction changes `count` and `pending` of a type 3 trigger and nothing else. -/
theorem Trigger.sameButCount_countedFrom (was t : Trigger) (wrote free : Bool) :
    t.sameButCount (was.countedFrom t wrote free) := by
  unfold Trigger.countedFrom
  split
  case h_1 f view =>
    obtain ⟨c, b, counted⟩ : ∃ c b, (if wrote then Icount.selfWritten was.count free f else Icount.counted t.impl f) =
        { f with count := c, pending := b } := by
      split
      · exact Icount.selfWritten_eq _ _ f
      · exact Icount.counted_eq _ f
    refine ⟨rfl, rfl, rfl, rfl, rfl, rfl, fun other => absurd ?_ other, fun g viewG => ⟨c, b, ?_⟩⟩
    · rw [Tdata1.typ, view, View.typ]
    · obtain rfl : f = g := View.icount.inj (view.symm.trans viewG)
      exact congrArg View.icount counted
  all_goals exact t.sameButCount_refl

theorem State.sameButCount_countedAt (was at_ : State) (md : Mode) (wrote : Option Nat) (i : Nat) (t : Trigger) :
    t.sameButCount (State.countedAt was at_ md wrote i t) := by
  unfold State.countedAt
  split
  · split
    · exact Trigger.sameButCount_countedFrom _ t _ _
    · exact t.sameButCount_refl
  · exact t.sameButCount_refl

theorem State.sameButCount_countedTrigs (was at_ : State) (now : List Trigger) (md : Mode) (wrote : Option Nat) :
    List.Forall₂ Trigger.sameButCount now (State.countedTrigs was at_ now md wrote) := by
  rw [List.forall₂_iff_get]
  refine ⟨by simp, fun i _ _ => ?_⟩
  simpa [State.countedTrigs] using State.sameButCount_countedAt was at_ md wrote i _

/-- The write part of an instruction that names `tinfo` does nothing, whether the instruction writes or not. -/
theorem State.csrWritten_tinfo (s : State) (op : CsrOp) (name : tmCsr op.csr = some .tinfo) : s.csrWritten op = (s, none) := by
  simp [State.csrWritten, State.csrStore, name, State.writeCsr]

/-- Settles O22: the instruction retires with `rd` and the program counter written, and its write part has done nothing. -/
theorem writingInfoHasNoEffect : Obligations.WritingInfoHasNoEffect := by
  intro i s csr machine present
  obtain ⟨op, opCsr, run⟩ := exec_next i s
  have name : tmCsr op.csr = some .tinfo := by rw [opCsr, csr]; rfl
  have allowed : s.csrPermission op.csr = .allowed := by
    rw [State.csrPermission, name]
    exact s.permission_of_isMachine .tinfo present machine
  rw [s.csrInstr_allowed op allowed, State.csrEffect, s.csrWritten_tinfo op name] at run
  refine ⟨_, run, ?_, ?_, ?_⟩
  · simp [State.sameShared]
  · simp [State.sameHart]
  · simpa using State.sameButCount_countedTrigs s s s.trigs s.mode none

end Sys2Proof.Machine
end

section
/-! What a write to `tdata1` stores (spec/40_csr_access.md R285 to R292): a value with every hard-wired bit in place, without
`chain` before a debugger's trigger, and from M-mode with `dmode` 0. -/

namespace Sys2Proof.Machine

/-! ### The value without its `chain` bit -/

@[simp] theorem Tdata1.withoutChain_dmode (n : Tdata1) : n.withoutChain.dmode = n.dmode := by
  unfold Tdata1.withoutChain
  split <;> rfl

@[simp] theorem Tdata1.withoutChain_isLink (n : Tdata1) : n.withoutChain.isLink = false := by
  obtain ⟨dmode, view⟩ := n
  cases view <;> rfl

/-- `chain` is no hard-wired bit. -/
theorem Tdata1.normal_withoutChain (cfg : Config) (p : TrigImpl) (n : Tdata1) :
    n.withoutChain.normal cfg p = (n.normal cfg p).withoutChain := by
  obtain ⟨dmode, view⟩ := n
  cases view <;> rfl

@[simp] theorem interlocked_dmode (ts : List Trigger) (i : Nat) (n : Tdata1) : (interlocked ts i n).dmode = n.dmode := by
  unfold interlocked
  split
  · exact n.withoutChain_dmode
  · rfl

theorem interlocked_cases (ts : List Trigger) (i : Nat) (n : Tdata1) :
    interlocked ts i n = n ∨ interlocked ts i n = n.withoutChain := by
  unfold interlocked
  split
  · exact .inr rfl
  · exact .inl rfl

/-! ### The value asked for and the value stored -/

/-- A write that is not ignored stores the value asked for as its neighbour lets it; M-mode writes no debugger's trigger. -/
theorem State.newTdata1_some (s : State) (i : Nat) (t : Trigger) (v : Word) (debug : Bool) (n : Tdata1)
    (stored : s.newTdata1 i t v debug = some n) :
    (debug = false → t.tdata1.dmode = false) ∧ n = interlocked s.trigs i (s.askedTdata1 i t v debug) := by
  unfold State.newTdata1 at stored
  split at stored
  · cases stored
  case isFalse owner =>
    split at stored
    · cases stored
    · refine ⟨?_, (Option.some.inj stored).symm⟩
      rintro rfl
      simpa using owner

/-- A write to `tdata1` asks for a supported value with its hard-wired bits, or for a disabled trigger. -/
theorem State.askedTdata1_cases (s : State) (i : Nat) (t : Trigger) (v : Word) (debug : Bool) :
    (∃ u : Tdata1, s.askedTdata1 i t v debug = u.normal s.cfg t.impl ∧
      tdata1Supported s.cfg t.impl t.tdata1 t.tdata2 t.tdata3 (u.normal s.cfg t.impl) = true) ∨
    ∃ d : Bool, s.askedTdata1 i t v debug = { disabledValue s.cfg t.impl with dmode := d && s.cfg.hasDebugMode } := by
  unfold State.askedTdata1
  split
  · exact .inr ⟨false, rfl⟩
  · exact legalizeTdata1_cases _ _ _ _ _ _ _ _ _

/-- The disabled trigger has its hard-wired bits too. -/
theorem disabledValue_view (cfg : Config) (p : TrigImpl) : ∃ w : View, (disabledValue cfg p).view = w.normal cfg p := by
  unfold disabledValue
  split
  · exact ⟨.disabled 0, rfl⟩
  · exact ⟨_, rfl⟩

/-- What a write stores has every hard-wired bit at its fixed value. -/
theorem State.newTdata1_eq_normal (s : State) (i : Nat) (t : Trigger) (v : Word) (debug : Bool) (n : Tdata1)
    (stored : s.newTdata1 i t v debug = some n) : ∃ u : Tdata1, n = u.normal s.cfg t.impl := by
  obtain ⟨-, rfl⟩ := s.newTdata1_some i t v debug n stored
  have asked : ∃ u : Tdata1, s.askedTdata1 i t v debug = u.normal s.cfg t.impl := by
    rcases s.askedTdata1_cases i t v debug with ⟨u, asked, -⟩ | ⟨d, asked⟩
    · exact ⟨u, asked⟩
    · obtain ⟨w, view⟩ := disabledValue_view s.cfg t.impl
      exact ⟨⟨d, w⟩, asked.trans (congrArg (Tdata1.mk _) view)⟩
  obtain ⟨u, asked⟩ := asked
  rw [asked]
  rcases interlocked_cases s.trigs i (u.normal s.cfg t.impl) with kept | unlinked
  · exact ⟨u, kept⟩
  · exact ⟨u.withoutChain, unlinked.trans (u.normal_withoutChain _ _).symm⟩

/-- Settles O28: with `dmode` 0 before a debugger's trigger, what is stored is the value without its `chain`. -/
theorem chainIntoDebuggersTriggerZeroed : Obligations.ChainIntoDebuggersTriggerZeroed := by
  intro s i t u v debug n stored next debuggers dmode
  obtain ⟨-, rfl⟩ := s.newTdata1_some i t v debug n stored
  rw [interlocked_dmode] at dmode
  have nextDebugs : nextIsDebugs s.trigs i = true := by rw [nextIsDebugs, next]; exact debuggers
  simp [interlocked, dmode, nextDebugs]

/-! ### Modes that the hart does not have -/

/-- The hard-wired bits include the enables of the modes that the hart lacks; type 7 has no enables. -/
theorem View.enabledIn_normal_of_missing (cfg : Config) (p : TrigImpl) (w : View) (typ : w.typ ≠ 7) :
    (cfg.hasS = false → (w.normal cfg p).enabledIn .s = false) ∧
    (cfg.hasU = false → (w.normal cfg p).enabledIn .u = false) ∧
    (cfg.hasH = false → (w.normal cfg p).enabledIn .vs = false ∧ (w.normal cfg p).enabledIn .vu = false) := by
  cases w with
  | mcontrol f => simp +contextual [View.normal, View.enabledIn, Mcontrol.normal]
  | icount f => simp +contextual [View.normal, View.enabledIn, Icount.normal]
  | itrigger f => simp +contextual [View.normal, View.enabledIn, Itrigger.normal]
  | etrigger f => simp +contextual [View.normal, View.enabledIn, Etrigger.normal]
  | mcontrol6 f => simp +contextual [View.normal, View.enabledIn, Mcontrol6.normal]
  | tmext f => exact absurd rfl typ
  | disabled data => exact ⟨fun _ => rfl, fun _ => rfl, fun _ => ⟨rfl, rfl⟩⟩

@[simp] theorem View.normal_typ (cfg : Config) (p : TrigImpl) (w : View) : (w.normal cfg p).typ = w.typ := by
  cases w <;> rfl

/-- Settles O27: what is stored has its hard-wired bits, and those enables are among them. -/
theorem missingModesHaveNoEnable : Obligations.MissingModesHaveNoEnable := by
  intro s i t v debug n stored typ
  obtain ⟨u, rfl⟩ := s.newTdata1_eq_normal i t v debug n stored
  exact View.enabledIn_normal_of_missing s.cfg t.impl u.view (by simpa [Tdata1.typ, Tdata1.normal] using typ)

/-! ### Writes from outside Debug Mode -/

/-- The bit that an image asks for as `dmode` (spec/10_state.md R29). -/
theorem Tdata1.ofImage_dmode (x : Xlen) (v : Word) (t : Tdata1) (h : Tdata1.ofImage x v = some t) :
    t.dmode = v.getLsbD (x.bits - 5) := by
  cases x with
  | x32 =>
    simp only [Tdata1.ofImage, Tdata1.ofImage32] at h
    split at h <;> cases h <;> rfl
  | x64 =>
    simp only [Tdata1.ofImage, Tdata1.ofImage64] at h
    split at h <;> cases h <;> rfl

theorem getLsbD_of_and_dmodeBit (x : Xlen) (v : Word) (clear : v &&& dmodeBit x = 0) : v.getLsbD (x.bits - 5) = false := by
  have bit : (dmodeBit x).getLsbD (x.bits - 5) = true := by cases x <;> rfl
  simpa [bit] using congrArg (fun w => BitVec.getLsbD w (x.bits - 5)) clear

theorem and_dmodeBit_askedImage (x : Xlen) (v : Word) : askedImage x v false &&& dmodeBit x = 0 := by
  simp [askedImage, BitVec.and_assoc]

/-- M-mode's image has no `dmode` bit to lose. -/
theorem askedImage_askedImage (x : Xlen) (v : Word) : askedImage x (askedImage x v false) false = askedImage x v false := by
  simp [askedImage, BitVec.and_assoc]

/-- Neither what an image without the `dmode` bit asks for nor a substitute of it has `dmode`, if the writer is M-mode. -/
theorem legalizeTdata1_dmode (cfg : Config) (p : TrigImpl) (i : Nat) (old : Tdata1) (t2 : Word) (t3 : Textra) (x : Xlen)
    (v : Word) (clear : v &&& dmodeBit x = 0) : (legalizeTdata1 cfg p i old t2 t3 x v false).dmode = false := by
  have substitute (offered : Option Tdata1) : (tdata1Substitute cfg p old t2 t3 false false offered).dmode = false := by
    unfold tdata1Substitute
    cases offered with
    | none => rfl
    | some u => dsimp only; split <;> rfl
  have bit : (v &&& dmodeBit x != 0) = false := by rw [clear]; rfl
  unfold legalizeTdata1
  rw [bit]
  dsimp only
  split
  case h_1 asked image =>
    have dmode := (Tdata1.ofImage_dmode x v asked image).trans (getLsbD_of_and_dmodeBit x v clear)
    split
    · rw [Tdata1.normal, dmode, Bool.false_and]
    · exact substitute _
  · exact substitute _

theorem State.askedTdata1_dmode (s : State) (i : Nat) (t : Trigger) (v : Word) : (s.askedTdata1 i t v false).dmode = false := by
  unfold State.askedTdata1
  split
  · rfl
  · exact legalizeTdata1_dmode _ _ _ _ _ _ _ _ (and_dmodeBit_askedImage s.xlen v)

/-- From M-mode the `dmode` bit of the written value makes no difference. -/
theorem State.newTdata1_askedImage (s : State) (i : Nat) (t : Trigger) (v : Word) :
    s.newTdata1 i t (askedImage s.xlen v false) false = s.newTdata1 i t v false := by
  have asked : s.askedTdata1 i t (askedImage s.xlen v false) false = s.askedTdata1 i t v false := by
    simp only [State.askedTdata1, askedImage_askedImage]
  simp only [State.newTdata1, asked]

/-- A write from M-mode leaves every `dmode`: it reaches the selected trigger only if its `dmode` is 0, and stores 0 there. -/
theorem State.writeTdata1_dmodes (s : State) (v : Word) (outside : (s.mode == .debug) = false) :
    (s.writeTdata1 v).1.trigs.map (fun t => t.tdata1.dmode) = s.trigs.map (fun t => t.tdata1.dmode) := by
  rcases s.writeTdata1_cases v with ignored | ⟨t, n, selected, stored, written⟩
  · rw [ignored]
  · rw [outside] at stored
    obtain ⟨writable, rfl⟩ := s.newTdata1_some _ t v false n stored
    have selected : s.trigs[s.tselect.toNat]? = some t := selected
    rw [written, s.storeTdata1_trigs]
    apply List.ext_getElem?
    intro j
    rw [List.getElem?_map, List.getElem?_map, State.modifyTrig_get]
    by_cases here : j = s.tselect.toNat
    · simp [here, selected, writable rfl, s.askedTdata1_dmode]
    · simp [here]

/-- Settles O26: M-mode's value is cut to the image without `dmode`, and what is stored has the `dmode` that was there, 0. -/
theorem machineWriteKeepsDmode : Obligations.MachineWriteKeepsDmode := by
  intro s v mode
  have outside : (s.mode == .debug) = false := by simpa using mode
  refine ⟨?_, s.writeTdata1_dmodes v outside⟩
  change s.writeTdata1 v = s.writeTdata1 (askedImage s.xlen v false)
  unfold State.writeTdata1
  simp only [outside, s.newTdata1_askedImage]

end Sys2Proof.Machine
end

section
/-! What a disabled trigger holds in `tdata2` and `tdata3` (spec/40_csr_access.md R298): every value that some type it supports
holds. Of `tdata3` it uses what any of those types uses, so that no such value loses a bit. -/

namespace Sys2Proof.Machine

theorem View.isDisabledForm_of_typ (p : TrigImpl) (w : View) (typ : w.typ = 15) : w.isDisabledForm p = true := by
  simp [View.isDisabledForm, typ]

theorem View.eq_disabled_of_typ (w : View) (typ : w.typ = 15) : ∃ data, w = .disabled data := by
  cases w with
  | disabled data => exact ⟨data, rfl⟩
  | mcontrol | icount | itrigger | etrigger | mcontrol6 | tmext => cases typ

/-- A disabled trigger uses `tdata3` if a type that it supports does. -/
theorem usesTdata3_disabled (p : TrigImpl) (w : View) (data : BitVec 59) (type : supportsType p w.typ = true)
    (uses : usesTdata3 p w = true) : usesTdata3 p (.disabled data) = true := by
  cases w with
  | mcontrol | icount | itrigger | etrigger | mcontrol6 | tmext =>
    simp only [View.typ] at type
    simp only [usesTdata3] at uses
    simp [usesTdata3, type, uses]
  | disabled => exact uses

/-- A value with the tied bits of a type that the trigger supports has those of the disabled trigger. -/
theorem Textra.normal_disabled (cfg : Config) (p : TrigImpl) (w : View) (data : BitVec 59) (e : Textra)
    (type : supportsType p w.typ = true) (tied : e.normal cfg p w = e) : e.normal cfg p (.disabled data) = e := by
  by_cases uses : usesTdata3 p w = true
  · have same : e.normal cfg p (.disabled data) = e.normal cfg p w := by
      simp only [Textra.normal, uses, usesTdata3_disabled p w data type uses]
    exact same.trans tied
  · have zero : e = {} := by
      rw [← tied, Textra.normal]
      simp [uses]
    rw [zero, Textra.normal_zero]

theorem Textra.normal_of_legalForSome (cfg : Config) (p : TrigImpl) (data : BitVec 59) (e : Textra)
    (legal : tdata3LegalForSome cfg p e = true) : e.normal cfg p (.disabled data) = e := by
  simp only [tdata3LegalForSome, List.any_eq_true, Bool.and_eq_true, tdata3Base, beq_iff_eq] at legal
  obtain ⟨w, -, ⟨type, tied, -⟩, -⟩ := legal
  exact Textra.normal_disabled cfg p w data e type tied

/-- Settles O33: a value that a configuration of a supported type holds is legal while the trigger is disabled, and none is refused
then. -/
theorem disabledTriggerTakesAnySupportedValue : Obligations.DisabledTriggerTakesAnySupportedValue := by
  intro cfg p i d x old v olde e n typ fields
  have disabled : d.view.isDisabledForm p = true := d.view.isDisabledForm_of_typ p typ
  obtain ⟨data, view⟩ := d.view.eq_disabled_of_typ typ
  constructor
  · intro legal
    have mask : tdata2Mask p d.view = none := by rw [view]; rfl
    have legalDisabled : tdata2Legal cfg p d.view v = true := by
      rw [tdata2Legal, if_pos disabled]
      exact tdata2Legal_forSome cfg p n.dmode n.view v fields legal
    exact legalizeTdata2_legal cfg p i d x old v mask legalDisabled
      (refusedTdata2_mustHold cfg p i d old v (.inr (.inl disabled)))
  · intro legal
    have forSome := tdata3Legal_forSome cfg p n.dmode n.view e fields legal
    have tied : e.normal cfg p d.view = e := by
      rw [view]
      exact Textra.normal_of_legalForSome cfg p data e forSome
    have legalDisabled : tdata3Legal cfg p d.view e = true := by rw [tdata3Legal, if_pos disabled, forSome]
    have kept : refusedTdata3 p i d olde e = false := by simp [refusedTdata3, disabled]
    exact legalizeTdata3_legal cfg p i d x olde e tied legalDisabled kept

end Sys2Proof.Machine
end

section
/-! What a write to `tdata1` stores is legal beside the trigger's `tdata2` and `tdata3` (spec/40_csr_access.md R283): a supported
value is so by the test it has passed, the disabled trigger by R286 and R298, and losing `chain` (R292) loses neither. -/

namespace Sys2Proof.Machine

/-! ### Hard-wired bits stay where they are -/

/-- For every combination of kinds of access one `timing` is supported. -/
theorem timing_supported (p : TrigImpl) (timings : wfTimings p = true) (i : Nat) (hi : i < 16) :
    p.timing0.getLsbD i = true ∨ p.timing1.getLsbD i = true := by
  have all : p.timing0 ||| p.timing1 = 0xffff := by simpa [wfTimings] using timings
  have set : (0xffff#16).getLsbD i = true := (by decide : ∀ j < 16, (0xffff#16).getLsbD j = true) i hi
  rw [← Bool.or_eq_true, ← BitVec.getLsbD_or, all]
  exact set

/-- A `timing` that has been forced is supported, and not forced again. -/
theorem legalTiming_legalTiming (p : TrigImpl) (timings : wfTimings p = true) (select execute store load asked : Bool) :
    legalTiming p select execute store load (legalTiming p select execute store load asked) =
      legalTiming p select execute store load asked := by
  have hi : select.toNat + 2 * execute.toNat + 4 * store.toNat + 8 * load.toNat < 16 := by
    have := select.toNat_lt; have := execute.toNat_lt; have := store.toNat_lt; have := load.toNat_lt
    omega
  have supported := timing_supported p timings _ hi
  unfold legalTiming
  generalize select.toNat + 2 * execute.toNat + 4 * store.toNat + 8 * load.toNat = i at supported
  cases asked with
  | false => cases h : p.timing0.getLsbD i <;> simp_all
  | true => cases h : p.timing1.getLsbD i <;> simp_all

theorem legalCount_legalCount (p : TrigImpl) (c : BitVec 14) : legalCount p (legalCount p c) = legalCount p c := by
  unfold legalCount
  split
  · rfl
  · rw [BitVec.and_assoc, BitVec.and_self]

/-- The data of a type 15 trigger is kept as written or one constant, cut to the width of the register in either case. -/
theorem normalData_normalData (cfg : Config) (p : TrigImpl) (data : BitVec 59) :
    normalData cfg p (normalData cfg p data) = normalData cfg p data := by
  have low (d : BitVec 59) : ((d.extractLsb' 0 27).setWidth 59).extractLsb' 0 27 = d.extractLsb' 0 27 := by
    apply BitVec.eq_of_getLsbD_eq
    intro i hi
    have wide : i < 59 := by omega
    simp [hi, wide]
  by_cases kept : p.keepDisabledData = true
  · by_cases narrow : cfg.dxlen = .x32
    · simp [normalData, heldData, kept, narrow, low]
    · simp [normalData, heldData, kept, narrow]
  · simp [normalData, heldData, kept]

theorem View.normal_normal (cfg : Config) (p : TrigImpl) (timings : wfTimings p = true) (w : View) :
    (w.normal cfg p).normal cfg p = w.normal cfg p := by
  cases w with
  | mcontrol f =>
    by_cases narrow : cfg.dxlen = .x32
    all_goals simp [View.normal, Mcontrol.normal, legalTiming_legalTiming p timings, narrow, BitVec.and_assoc]
  | icount f => simp [View.normal, Icount.normal, legalCount_legalCount]
  | itrigger f => simp [View.normal, Itrigger.normal]
  | etrigger f => simp [View.normal, Etrigger.normal]
  | mcontrol6 f => simp [View.normal, Mcontrol6.normal]
  | tmext f =>
    by_cases kept : p.extSelectKept = true
    all_goals simp [View.normal, Tmext.normal, kept, BitVec.and_assoc]
  | disabled data => simp [View.normal, normalData_normalData]

theorem Tdata1.normal_normal (cfg : Config) (p : TrigImpl) (timings : wfTimings p = true) (n : Tdata1) :
    (n.normal cfg p).normal cfg p = n.normal cfg p := by
  simp [Tdata1.normal, View.normal_normal cfg p timings]

/-! ### Codes that every configuration may hold -/

/-- If some code of the list is legal, the chosen one is. -/
theorem firstLegal_legal (legal : Nat → Bool) (codes : List Nat) (offered : ∃ c ∈ codes, legal c = true) :
    legal (firstLegal legal codes) = true := by
  unfold firstLegal
  split
  case isTrue zero => exact zero
  · cases found : codes.find? legal with
    | some c => exact List.find?_some found
    | none =>
      obtain ⟨c, mem, ok⟩ := offered
      exact absurd ok (List.find?_eq_none.mp found c mem)

theorem actionLegal_lt (cfg : Config) (v : ViewImpl) (dmode : Bool) (a : Nat) (legal : actionLegal cfg v dmode a = true) :
    a < 16 := by
  simp only [actionLegal, Bool.and_eq_true] at legal
  obtain ⟨⟨⟨⟨-, defined⟩, -⟩, -⟩, -⟩ := legal
  exact (by decide : ∀ b ∈ definedActions, b < 16) a (List.contains_iff_mem.mp defined)

/-- An action that is legal with `dmode` 0 is legal with `dmode` 1. -/
theorem actionLegal_of_not_dmode (cfg : Config) (v : ViewImpl) (dmode : Bool) (a : Nat)
    (legal : actionLegal cfg v false a = true) : actionLegal cfg v dmode a = true := by
  simp only [actionLegal, Bool.false_and, Bool.or_false, Bool.and_eq_true] at legal ⊢
  obtain ⟨⟨⟨accepted, notDebug⟩, out0⟩, out1⟩ := legal
  exact ⟨⟨⟨accepted, by rw [notDebug, Bool.true_or]⟩, out0⟩, out1⟩

/-- The blank `action` is legal where a usable one exists. -/
theorem actionLegal_blankAction (cfg : Config) (v : ViewImpl) (dmode : Bool) (usable : wfUsableAction cfg v = true) :
    actionLegal cfg v dmode (blankAction cfg v) = true := by
  apply actionLegal_of_not_dmode
  apply firstLegal_legal
  simp only [wfUsableAction, List.any_eq_true, Bool.and_eq_true] at usable
  obtain ⟨a, mem, ⟨⟨defined, notDebug⟩, out0⟩, out1⟩ := usable
  refine ⟨a, mem, ?_⟩
  simp only [actionLegal, List.contains_iff_mem.mpr mem, defined, notDebug, out0, out1, Bool.true_or, Bool.and_self]

theorem matchLegal_lt (v : ViewImpl) (napot : Bool) (op : Nat) (legal : matchLegal v napot op = true) : op < 16 := by
  simp only [matchLegal, Bool.and_eq_true] at legal
  obtain ⟨⟨-, defined⟩, -⟩ := legal
  exact (by decide : ∀ b ∈ definedMatchOps, b < 16) op (List.contains_iff_mem.mp defined)

/-- A match operation that is not NAPOT is legal with NAPOT ranges and without. -/
theorem matchLegal_of_plain (v : ViewImpl) (napot : Bool) (op : Nat) (legal : matchLegal v false op = true) :
    matchLegal v napot op = true := by
  simp only [matchLegal, Bool.false_or, Bool.and_eq_true] at legal ⊢
  obtain ⟨accepted, plain⟩ := legal
  exact ⟨accepted, by rw [plain, Bool.or_true]⟩

/-- Where a match operation that is not NAPOT is accepted, the blank one is one. -/
theorem matchLegal_blankMatch_of_plain (v : ViewImpl) (napot : Bool) (plain : plainMatch v = true) :
    matchLegal v false (blankMatch v napot) = true := by
  rw [blankMatch, if_pos plain]
  exact firstLegal_legal _ _ (List.any_eq_true.mp plain)

/-- The blank `match` is legal where a usable one exists. -/
theorem matchLegal_blankMatch (v : ViewImpl) (napot : Bool) (usable : wfUsableMatch v napot = true) :
    matchLegal v napot (blankMatch v napot) = true := by
  by_cases plain : plainMatch v = true
  · exact matchLegal_of_plain v napot _ (matchLegal_blankMatch_of_plain v napot plain)
  · rw [blankMatch, if_neg plain]
    apply firstLegal_legal
    simp only [wfUsableMatch, List.any_eq_true, Bool.and_eq_true] at usable
    obtain ⟨op, mem, defined, range⟩ := usable
    exact ⟨op, mem, by simp only [matchLegal, List.contains_iff_mem.mpr mem, defined, range, Bool.and_self]⟩

/-- A code below 16 is held by a field of at least four bits. -/
theorem toNat_ofNat_code {w : Nat} (code : Nat) (lt : code < 16) (wide : 4 ≤ w) : (BitVec.ofNat w code).toNat = code := by
  rw [BitVec.toNat_ofNat]
  exact Nat.mod_eq_of_lt (lt.trans_le (Nat.pow_le_pow_right (by decide) wide : 2 ^ 4 ≤ 2 ^ w))

/-- The field holds the blank `action`. -/
theorem actionLegal_blankField (cfg : Config) (v : ViewImpl) (dmode : Bool) (usable : wfUsableAction cfg v = true) {w : Nat}
    (wide : 4 ≤ w) : actionLegal cfg v dmode (BitVec.ofNat w (blankAction cfg v)).toNat = true := by
  have legal := actionLegal_blankAction cfg v dmode usable
  rwa [toNat_ofNat_code _ (actionLegal_lt cfg v dmode _ legal) wide]

/-- The field holds the blank `match`. -/
theorem matchLegal_blankField (v : ViewImpl) (napot : Bool) (usable : wfUsableMatch v napot = true) :
    matchLegal v napot (BitVec.ofNat 4 (blankMatch v napot)).toNat = true := by
  have legal := matchLegal_blankMatch v napot usable
  rwa [toNat_ofNat_code _ (matchLegal_lt v napot _ legal) le_rfl]

/-! ### The blank configuration of the reset type -/

theorem has_lt (p : TrigImpl) (n : Nat) (has : p.has n = true) : n < 16 := BitVec.lt_of_getLsbD has

/-- The types that a trigger can support. -/
theorem typ_of_has (p : TrigImpl) (info : wfInfo p = true) (n : Nat) (has : p.has n = true) :
    n = 2 ∨ n = 3 ∨ n = 4 ∨ n = 5 ∨ n = 6 ∨ n = 7 ∨ n = 15 := by
  have lt := has_lt p n has
  simp only [wfInfo, Bool.and_eq_true, List.all_eq_true, Bool.not_eq_true'] at info
  obtain ⟨-, reserved⟩ := info
  have other : n ∉ [0, 1, 8, 9, 10, 11, 12, 13, 14] := fun mem => by
    rw [reserved n mem] at has
    cases has
  simp only [List.mem_cons, List.not_mem_nil, or_false, not_or] at other
  omega

/-- The blank view of the reset type holds codes the implementation accepts. -/
theorem blankView_fieldsLegal (cfg : Config) (p : TrigImpl) (dmode : Bool) (count : BitVec 14) (data : BitVec 59)
    (info : wfInfo p = true) (has : p.has p.resetType = true) (usable : wfUsable cfg p = true) :
    (blankView cfg p p.resetType count data).fieldsLegal cfg p dmode = true := by
  have type : supportsType p p.resetType = true := has
  unfold wfUsable at usable
  rcases typ_of_has p info p.resetType has with typ | typ | typ | typ | typ | typ | typ <;>
    rw [typ] at type usable ⊢
  · obtain ⟨action, op⟩ := Bool.and_eq_true_iff.mp usable
    have size : (if cfg.dxlen = .x32 then (0 : BitVec 4) &&& 3 else 0) = 0 := by split <;> rfl
    simp only [blankView, View.normal, Mcontrol.normal, View.fieldsLegal, type, size,
      actionLegal_blankField cfg p.mcontrol dmode action le_rfl, matchLegal_blankField p.mcontrol _ op]
    rfl
  · exact Bool.and_eq_true_iff.mpr ⟨type, actionLegal_blankField cfg p.icount dmode usable (by decide)⟩
  · exact Bool.and_eq_true_iff.mpr ⟨type, actionLegal_blankField cfg p.itrigger dmode usable (by decide)⟩
  · exact Bool.and_eq_true_iff.mpr ⟨type, actionLegal_blankField cfg p.etrigger dmode usable (by decide)⟩
  · obtain ⟨action, op⟩ := Bool.and_eq_true_iff.mp usable
    simp only [blankView, View.normal, Mcontrol6.normal, View.fieldsLegal, type,
      actionLegal_blankField cfg p.mcontrol6 dmode action le_rfl, matchLegal_blankField p.mcontrol6 _ op]
    rfl
  · exact Bool.and_eq_true_iff.mpr ⟨type, actionLegal_blankField cfg p.tmext dmode usable (by decide)⟩
  · simp only [blankView, View.normal, View.fieldsLegal, hasDisabled, type, Bool.true_or]

/-- A trigger that supports one type has it as its only type. -/
theorem onlyType_of_has (p : TrigImpl) (single : multiType p = false) (n : Nat) (has : p.has n = true) : onlyType p = n := by
  have lt := has_lt p n has
  have mem : n ∈ (List.range 16).filter fun k => p.info.getLsbD k := List.mem_filter.mpr ⟨List.mem_range.mpr lt, has⟩
  simp only [multiType, decide_eq_false_iff_not, not_lt] at single
  obtain ⟨m, only⟩ := List.length_eq_one_iff.mp (single.antisymm (List.length_pos_of_mem mem))
  rw [only, List.mem_singleton] at mem
  rw [onlyType, ← List.head?_filter, only, mem]
  rfl

/-! ### The disabled trigger -/

/-- The disabled trigger's fields are legal: type 15 where that can be stored, else the blank view of the only type. -/
theorem disabledValue_fieldsLegal (cfg : Config) (p : TrigImpl) (dmode : Bool) (info : wfInfo p = true)
    (has : p.has p.resetType = true) (usable : wfUsable cfg p = true) :
    (disabledValue cfg p).view.fieldsLegal cfg p dmode = true := by
  unfold disabledValue
  split
  case isTrue disables =>
    have stored : hasDisabled p = true := by
      rw [hasDisabled, Bool.or_assoc (supportsType p 15), disables, Bool.or_true, Bool.true_or]
    exact stored
  case isFalse keeps =>
    have single : multiType p = false := by
      simp only [Bool.or_eq_true, not_or, Bool.not_eq_true] at keeps
      exact keeps.left
    rw [onlyType_of_has p single _ has]
    exact blankView_fieldsLegal cfg p dmode 0 0 info has usable

theorem blankView_enablesClear (cfg : Config) (p : TrigImpl) (n : Nat) (count : BitVec 14) (data : BitVec 59) :
    (blankView cfg p n count data).enablesClear = true := by
  unfold blankView
  split
  · simp [View.normal, View.enablesClear, Mcontrol.normal]
  · simp [View.normal, View.enablesClear, Icount.normal]
  · simp [View.normal, View.enablesClear, Itrigger.normal]
  · simp [View.normal, View.enablesClear, Etrigger.normal]
  · simp [View.normal, View.enablesClear, Mcontrol6.normal]
  · simp [View.normal, View.enablesClear, Tmext.normal]
  · rfl

/-- The blank `match` is no NAPOT one where others are accepted. -/
theorem blankMatch_not_napot (v : ViewImpl) (napot : Bool) (plain : plainMatch v = true) :
    (BitVec.ofNat 4 (blankMatch v napot) == 1 || BitVec.ofNat 4 (blankMatch v napot) == 9) = false := by
  have legal := matchLegal_blankMatch_of_plain v napot plain
  have code := toNat_ofNat_code _ (matchLegal_lt v false _ legal) (le_refl 4)
  simp only [matchLegal, Bool.false_or, Bool.and_eq_true, Bool.not_eq_true', Bool.or_eq_false_iff, beq_eq_false_iff_ne] at legal
  obtain ⟨-, not1, not9⟩ := legal
  rw [← code] at not1 not9
  simp only [Bool.or_eq_false_iff, beq_eq_false_iff_ne]
  exact ⟨fun h => not1 (by rw [h]; rfl), fun h => not9 (by rw [h]; rfl)⟩

/-- A blank view asks for a NAPOT range only where its type offers nothing else. -/
theorem blankView_not_napot (cfg : Config) (p : TrigImpl) (n : Nat) (count : BitVec 14) (data : BitVec 59) :
    ((blankView cfg p n count data).isNapot && (blankView cfg p n count data).offersPlain p) = false := by
  have code (v : ViewImpl) (napot : Bool) : ((BitVec.ofNat 4 (blankMatch v napot) == 1 ||
      BitVec.ofNat 4 (blankMatch v napot) == 9) && plainMatch v) = false := by
    cases plain : plainMatch v with
    | false => exact Bool.and_false _
    | true => rw [blankMatch_not_napot v napot plain, Bool.false_and]
  unfold blankView
  split
  case h_1 => exact code p.mcontrol _
  case h_5 => exact code p.mcontrol6 _
  all_goals rfl

/-- A write of 0 leaves the trigger disabled (spec/40_csr_access.md R286, R287). -/
theorem disabledValue_isDisabledForm (cfg : Config) (p : TrigImpl) : (disabledValue cfg p).view.isDisabledForm p = true := by
  unfold disabledValue
  split
  · rfl
  case isFalse h =>
    simp only [Bool.or_eq_true, Bool.not_eq_true', not_or, Bool.not_eq_true, Bool.not_eq_false] at h
    obtain ⟨single, keeps⟩ := h
    simp only [View.isDisabledForm, single, keeps, blankView_enablesClear, blankView_not_napot, Bool.not_false, Bool.and_self,
      Bool.or_true]

/-! ### A legal trigger with another `tdata1` -/

theorem trigLegal_iff (cfg : Config) (t : Trigger) : trigLegal cfg t = true ↔
    t.tdata1.normal cfg t.impl = t.tdata1 ∧ t.tdata1.fieldsLegal cfg t.impl = true ∧
      tdata2Legal cfg t.impl t.tdata1.view t.tdata2 = true ∧ tdata3Legal cfg t.impl t.tdata1.view t.tdata3 = true := by
  simp only [trigLegal, Bool.and_eq_true, beq_iff_eq, and_assoc]

/-- The constraints on a trigger's parameters that `tdata1` depends on. -/
theorem wfTrig_parts (cfg : Config) (p : TrigImpl) (impl : wfTrig cfg p = true) :
    wfInfo p = true ∧ p.has p.resetType = true ∧ wfUsable cfg p = true ∧ wfTimings p = true := by
  simp only [wfTrig, Bool.and_eq_true, and_assoc] at impl
  obtain ⟨info, has, -, usable, timings, -⟩ := impl
  exact ⟨info, has, usable, timings⟩

/-- Whatever a legal trigger holds in `tdata2` and `tdata3`, it can be disabled (spec/40_csr_access.md R286, R298). -/
theorem trigLegal_disabled (cfg : Config) (t : Trigger) (d : Bool) (impl : wfTrig cfg t.impl = true)
    (legal : trigLegal cfg t = true) :
    trigLegal cfg { t with tdata1 := { disabledValue cfg t.impl with dmode := d && cfg.hasDebugMode } } = true := by
  obtain ⟨info, has, usable, timings⟩ := wfTrig_parts cfg t.impl impl
  obtain ⟨-, fields, legal2, legal3⟩ := (trigLegal_iff cfg t).mp legal
  obtain ⟨w, view⟩ := disabledValue_view cfg t.impl
  have disabled := disabledValue_isDisabledForm cfg t.impl
  refine (trigLegal_iff cfg _).mpr ⟨?_, disabledValue_fieldsLegal cfg t.impl _ info has usable, ?_, ?_⟩
  · simp [Tdata1.normal, view, View.normal_normal cfg t.impl timings]
  · exact (if_pos disabled).trans (tdata2Legal_forSome cfg t.impl _ _ _ fields legal2)
  · exact (if_pos disabled).trans (tdata3Legal_forSome cfg t.impl _ _ _ fields legal3)

/-- A value that has passed the test of a write is legal there. -/
theorem trigLegal_supported (cfg : Config) (t : Trigger) (u : Tdata1) (timings : wfTimings t.impl = true)
    (supported : tdata1Supported cfg t.impl t.tdata1 t.tdata2 t.tdata3 (u.normal cfg t.impl) = true) :
    trigLegal cfg { t with tdata1 := u.normal cfg t.impl } = true := by
  simp only [tdata1Supported, Bool.and_eq_true] at supported
  obtain ⟨⟨⟨fields, legal2⟩, legal3⟩, -⟩ := supported
  exact (trigLegal_iff cfg _).mpr ⟨u.normal_normal cfg t.impl timings, fields, legal2, legal3⟩

theorem Tdata1.withoutChain_shape (n : Tdata1) : n.withoutChain.view.shape = n.view.shape := by
  obtain ⟨dmode, view⟩ := n
  cases view <;> rfl

theorem Tdata1.withoutChain_isDisabledForm (p : TrigImpl) (n : Tdata1) :
    n.withoutChain.view.isDisabledForm p = n.view.isDisabledForm p := by
  obtain ⟨dmode, view⟩ := n
  cases view <;> rfl

theorem Tdata1.withoutChain_fieldsLegal (cfg : Config) (p : TrigImpl) (n : Tdata1) :
    n.withoutChain.fieldsLegal cfg p = n.fieldsLegal cfg p := by
  obtain ⟨dmode, view⟩ := n
  cases view <;> rfl

/-- Losing `chain` leaves a legal trigger legal. -/
theorem trigLegal_withoutChain (cfg : Config) (t : Trigger) (n : Tdata1) (legal : trigLegal cfg { t with tdata1 := n } = true) :
    trigLegal cfg { t with tdata1 := n.withoutChain } = true := by
  obtain ⟨tied, fields, legal2, legal3⟩ := (trigLegal_iff cfg _).mp legal
  have shape := n.withoutChain_shape
  have disabled : n.view.isDisabledForm t.impl = true → n.withoutChain.view.isDisabledForm t.impl = true :=
    (n.withoutChain_isDisabledForm t.impl).trans
  refine (trigLegal_iff cfg _).mpr ⟨?_, ?_, ?_, ?_⟩
  · exact (n.normal_withoutChain cfg t.impl).trans (congrArg Tdata1.withoutChain tied)
  · exact (n.withoutChain_fieldsLegal cfg t.impl).trans fields
  · exact tdata2Legal_of_shape cfg t.impl n.dmode t.tdata2 shape fields disabled legal2
  · exact tdata3Legal_of_shape cfg t.impl n.dmode t.tdata3 shape fields disabled legal3

theorem trigLegal_interlocked (cfg : Config) (ts : List Trigger) (i : Nat) (t : Trigger) (n : Tdata1)
    (legal : trigLegal cfg { t with tdata1 := n } = true) : trigLegal cfg { t with tdata1 := interlocked ts i n } = true := by
  rcases interlocked_cases ts i n with kept | unlinked
  · rwa [kept]
  · rw [unlinked]
    exact trigLegal_withoutChain cfg t n legal

/-- What a write asks for leaves a legal trigger legal. -/
theorem State.trigLegal_askedTdata1 (s : State) (i : Nat) (t : Trigger) (v : Word) (debug : Bool)
    (impl : wfTrig s.cfg t.impl = true) (legal : trigLegal s.cfg t = true) :
    trigLegal s.cfg { t with tdata1 := s.askedTdata1 i t v debug } = true := by
  rcases s.askedTdata1_cases i t v debug with ⟨u, asked, supported⟩ | ⟨d, asked⟩
  · obtain ⟨-, -, -, timings⟩ := wfTrig_parts s.cfg t.impl impl
    rw [asked]
    exact trigLegal_supported s.cfg t u timings supported
  · rw [asked]
    exact trigLegal_disabled s.cfg t d impl legal

/-- Legal fields are those of a type that the trigger supports, or of type 15. -/
theorem Tdata1.typ_of_fieldsLegal (cfg : Config) (p : TrigImpl) (n : Tdata1) (fields : n.fieldsLegal cfg p = true) :
    p.has n.typ = true ∨ n.typ = 15 := by
  obtain ⟨dmode, view⟩ := n
  cases view with
  | disabled data => exact .inr rfl
  | mcontrol | icount | itrigger | etrigger | mcontrol6 | tmext =>
    simp only [Tdata1.fieldsLegal, View.fieldsLegal, Bool.and_eq_true, and_assoc] at fields
    obtain ⟨type, -⟩ := fields
    exact .inl type

/-- Settles O30: what is asked for is legal beside `tdata2` and `tdata3`, and so is it without its `chain`. -/
theorem storedTdata1IsLegal : Obligations.StoredTdata1IsLegal := by
  intro s i t v debug n impl legal stored
  obtain ⟨-, rfl⟩ := s.newTdata1_some i t v debug n stored
  have legalStored := trigLegal_interlocked s.cfg s.trigs i t _ (s.trigLegal_askedTdata1 i t v debug impl legal)
  exact ⟨legalStored, Tdata1.typ_of_fieldsLegal s.cfg t.impl _ (trigLegal_fieldsLegal s.cfg _ legalStored)⟩

end Sys2Proof.Machine
end

section
/-! A chain fires only whole (spec/41_trigger_common.md R346 to R348): `chainBack` walks every link before the trigger, so what
`completes` tests of it is tested of every member of the chain. -/

namespace Sys2Proof.Machine

/-- The walk back from a trigger reaches just what unbroken links join to it (R346). -/
theorem mem_chainBack (ts : List Trigger) (i j : Nat) :
    j ∈ chainBack ts i ↔ j < i ∧ ∀ k, j ≤ k → k < i → linkAt ts k = true := by
  induction i with
  | zero => simp [chainBack]
  | succ i ih =>
    unfold chainBack
    split
    case isTrue link =>
      rw [List.mem_cons, ih]
      constructor
      · rintro (rfl | ⟨before, links⟩)
        · exact ⟨j.lt_succ_self, fun k from_j to_j => by rwa [show k = j by omega]⟩
        · refine ⟨before.trans i.lt_succ_self, fun k from_j to_i => ?_⟩
          rcases Nat.lt_succ_iff_lt_or_eq.mp to_i with inside | rfl
          · exact links k from_j inside
          · exact link
      · rintro ⟨before, links⟩
        rcases Nat.lt_succ_iff_lt_or_eq.mp before with inside | last
        · exact .inr ⟨inside, fun k from_j to_i => links k from_j (to_i.trans i.lt_succ_self)⟩
        · exact .inl last
    case isFalse broken =>
      exact iff_of_false List.not_mem_nil fun ⟨before, links⟩ =>
        broken (links i (Nat.lt_succ_iff.mp before) i.lt_succ_self)

theorem State.unblocked_iff (s : State) (i : Nat) :
    s.unblocked i = true ↔ ∀ j ∈ chainBack s.trigs i, s.hasMatched j = true := List.all_eq_true

theorem chainTimingOk_iff (ts : List Trigger) (i : Nat) :
    chainTimingOk ts i = true ↔ ∀ j ∈ chainBack ts i, timingAt ts j = timingAt ts i := by
  simp only [chainTimingOk, List.all_eq_true, beq_iff_eq]

theorem State.completes_iff (s : State) (new : List Nat) (i : Nat) :
    s.completes new i = true ↔
      linkAt s.trigs i = false ∧ s.hasMatched i = true ∧ s.unblocked i = true ∧
        (∃ j ∈ chainMembers s.trigs i, j ∈ new) ∧ chainTimingOk s.trigs i = true := by
  simp only [State.completes, Bool.and_eq_true, Bool.not_eq_true', List.any_eq_true, List.contains_iff_mem, and_assoc]

/-- A fire is that of a trigger that completes its chain. -/
theorem State.mem_completed (s : State) (e : Event) (r : Rank) (new : List Nat) (d : Due) :
    d ∈ s.completed e r new ↔
      ∃ (i : Nat) (t : Trigger), s.trigs[i]? = some t ∧ s.completes new i = true ∧ d = s.dueOf e r new i t := by
  simp only [State.completed, List.mem_flatten, List.mem_mapIdx, List.getElem?_eq_some_iff]
  constructor
  · rintro ⟨fires, ⟨i, inside, rfl⟩, mem⟩
    split at mem
    case isTrue complete => exact ⟨i, _, ⟨inside, rfl⟩, complete, List.mem_singleton.mp mem⟩
    case isFalse => cases mem
  · rintro ⟨i, t, ⟨inside, rfl⟩, complete, rfl⟩
    exact ⟨_, ⟨i, inside, rfl⟩, by rw [if_pos complete]; exact List.mem_singleton_self _⟩

/-- Settles O53: a fire completes its chain, and its chain's earlier members are those that the tests walk through. -/
theorem chainFiresOnlyWhole : Obligations.ChainFiresOnlyWhole := by
  intro s e r new d fires
  obtain ⟨i, t, -, complete, rfl⟩ := (s.mem_completed e r new d).mp fires
  obtain ⟨last, matched, unblocked, -, timing⟩ := (s.completes_iff new i).mp complete
  refine ⟨last, matched, fun j before links => ?_⟩
  have member : j ∈ chainBack s.trigs i := (mem_chainBack s.trigs i j).mpr ⟨before, links⟩
  exact ⟨(s.unblocked_iff i).mp unblocked j member, (chainTimingOk_iff s.trigs i).mp timing j member⟩

end Sys2Proof.Machine
end

section
/-! What a match operation answers (spec/42_memory_access_triggers.md R395 to R402), and what a trigger that answers an event
has met (spec/41_trigger_common.md R320). -/

namespace Sys2Proof.Machine

/-! ### The positive operations -/

theorem comparesOk_zero (x : Xlen) (t2 c : Word) : comparesOk x 0 t2 c = true ↔ c = t2 := beq_iff_eq

theorem comparesOk_two (x : Xlen) (t2 c : Word) : comparesOk x 2 t2 c = true ↔ c.toNat ≥ t2.toNat := decide_eq_true_iff

theorem comparesOk_three (x : Xlen) (t2 c : Word) : comparesOk x 3 t2 c = true ↔ c.toNat < t2.toNat := decide_eq_true_iff

/-- A positive operation but NAPOT; the empty set passes none (R395). -/
theorem matchOp_positive (x : Xlen) (k op : Nat) (cs : List Word) (t2 : Word) (positive : op < 8) (notNapot : op ≠ 1) :
    matchOp x k op cs t2 = some (cs.any (comparesOk x op t2)) := by
  cases cs with
  | nil => rfl
  | cons c cs =>
    have neither : ¬(op = 1 ∨ op = 9) := by omega
    simp [matchOp, neither, positive]

/-- What a positive operation asks of one compare value, it answers of any. -/
theorem matchOp_eq_decide_exists (x : Xlen) (k op : Nat) (cs : List Word) (t2 : Word) (passes : Word → Prop)
    [Decidable (∃ c ∈ cs, passes c)] (positive : op < 8) (notNapot : op ≠ 1)
    (compares : ∀ c, comparesOk x op t2 c = true ↔ passes c) :
    matchOp x k op cs t2 = some (decide (∃ c ∈ cs, passes c)) := by
  rw [matchOp_positive x k op cs t2 positive notNapot, Option.some_inj, Bool.eq_iff_iff, List.any_eq_true, decide_eq_true_iff]
  simp only [compares]

/-- Settles O36: operations 0, 2 and 3 are positive ones, and each says what it asks of a compare value. -/
theorem orderedMatches : Obligations.OrderedMatches := fun x k cs t2 =>
  ⟨matchOp_eq_decide_exists x k 0 cs t2 _ (by decide) (by decide) (comparesOk_zero x t2),
    matchOp_eq_decide_exists x k 2 cs t2 _ (by decide) (by decide) (comparesOk_two x t2),
    matchOp_eq_decide_exists x k 3 cs t2 _ (by decide) (by decide) (comparesOk_three x t2)⟩

/-! ### The negated operations -/

theorem matchOp_negated (x : Xlen) (k op : Nat) (cs : List Word) (t2 : Word) (negatable : op = 0 ∨ op = 4 ∨ op = 5)
    (nonempty : cs ≠ []) : matchOp x k (op + 8) cs t2 = some (!cs.any (comparesOk x op t2)) := by
  rcases negatable with rfl | rfl | rfl <;> simp [matchOp, nonempty]

/-- Both NAPOT operations look at the same range, so both have an answer or neither has (R397, U15). -/
theorem matchOp_napot_negated (x : Xlen) (k : Nat) (cs : List Word) (t2 : Word) (nonempty : cs ≠ []) :
    matchOp x k 9 cs t2 = (matchOp x k 1 cs t2).map not := by
  simp only [matchOp, List.isEmpty_eq_false_iff.mpr nonempty]
  cases lowestZero x.bits t2 with
  | none => rfl
  | some z =>
    by_cases supported : z + 1 ≤ k ∧ z + 1 < x.bits <;> simp [supported]

/-- Settles O38: NAPOT has its own negation, the three other operations negate whether any compare value passes. -/
theorem negatedMatches : Obligations.NegatedMatches := by
  intro x k op cs t2 b negatable nonempty answer
  have napotOrNot : op = 1 ∨ (op = 0 ∨ op = 4 ∨ op = 5) := by omega
  rcases napotOrNot with rfl | plain
  · rw [matchOp_napot_negated x k cs t2 nonempty, answer]
    rfl
  · rw [matchOp_positive x k op cs t2 (by omega) (by omega), Option.some_inj] at answer
    rw [matchOp_negated x k op cs t2 plain nonempty, answer]

/-! ### Cache operations -/

theorem AccessSel.watches_cacheOp (a : AccessSel) (cfg : Config) (ea : Word) (p ph : Bool) :
    a.watches cfg (.cacheOp ea p ph) = true ↔
      cfg.hasCacheops = true ∧ a.store = true ∧ a.select = false ∧ a.size = .any := by
  simp only [AccessSel.watches, Bool.and_eq_true, Bool.not_eq_true', beq_iff_eq, and_assoc]

/-- A trigger that answers an event has an access selection and has met every clause of R320 before the type's own. -/
theorem State.ownVerdict_ne_no (s : State) (i : Nat) (t : Trigger) (e : Event) (r : Rank)
    (answers : s.ownVerdict i t e r ≠ .no) :
    ∃ a : AccessSel, t.accessSel s.xlen = some a ∧ rankOf a.select e = r ∧ t.tdata1.enabledIn s.mode = true ∧
      a.watches s.cfg e = true ∧ s.textraOk t = true ∧ s.holdsBack t.tdata1 s.mode = false ∧
      s.ownVerdict i t e r = s.typeCondition i t a e := by
  unfold State.ownVerdict at answers ⊢
  cases selection : t.accessSel s.xlen with
  | none => simp [selection] at answers
  | some a =>
    simp only [selection] at answers ⊢
    split at answers
    case isTrue clauses =>
      have met := clauses
      simp only [Bool.and_eq_true, decide_eq_true_eq, Bool.not_eq_true'] at met
      obtain ⟨⟨⟨⟨rank, enabled⟩, watched⟩, context⟩, free⟩ := met
      exact ⟨a, rfl, rank, enabled, watched, context, free, if_pos clauses⟩
    case isFalse => exact absurd rfl answers

/-- Settles O40: a trigger answers only what it watches, and it watches a cache operation only with this size and `select`. -/
theorem cacheOperationsNeedSizeAndSelectZero : Obligations.CacheOperationsNeedSizeAndSelectZero := by
  intro s i t ea p ph r answers
  obtain ⟨a, selection, -, -, watched, -⟩ := s.ownVerdict_ne_no i t _ r answers
  obtain ⟨-, -, select, size⟩ := (a.watches_cacheOp s.cfg ea p ph).mp watched
  exact ⟨a, selection, size, select⟩

end Sys2Proof.Machine
end

section
/-! What a write to `tdata3` can leave in `mhselect` (spec/48_textra.md R529): every value that is stored has legal selects, since
that is asked of `tdata3` under every configuration, the disabled one included. -/

namespace Sys2Proof.Machine

theorem selectsLegal_of_base (cfg : Config) (p : TrigImpl) (view : View) (t : Textra) (base : tdata3Base cfg p view t = true) :
    t.selectsLegal cfg p = true :=
  (Bool.and_eq_true_iff.mp base).2

/-- A disabled trigger holds what some type that it supports can hold (R298); any other, what its own configuration can. -/
theorem selectsLegal_of_tdata3Legal (cfg : Config) (p : TrigImpl) (view : View) (t : Textra)
    (legal : tdata3Legal cfg p view t = true) : t.selectsLegal cfg p = true := by
  unfold tdata3Legal at legal
  split at legal
  case isTrue disabled =>
    simp only [tdata3LegalForSome, List.any_eq_true, Bool.and_eq_true, and_assoc] at legal
    obtain ⟨w, -, -, base, -⟩ := legal
    exact selectsLegal_of_base cfg p w t base
  case isFalse enabled => exact selectsLegal_of_base cfg p view t (Bool.and_eq_true_iff.mp legal).1

theorem Textra.selectsLegal_zero (cfg : Config) (p : TrigImpl) : Textra.selectsLegal cfg p {} = true := by
  simp [Textra.selectsLegal, mhselectLegal, sselectLegal]

/-- What a write to `tdata3` stores is legal, or 0. -/
theorem State.newTdata3_selectsLegal (s : State) (i : Nat) (t : Trigger) (v : Word) :
    (s.newTdata3 i t v).selectsLegal s.cfg t.impl = true := by
  rcases legalizeTdata3_cases s.cfg t.impl i t.tdata1 s.xlen t.tdata3 (Textra.ofImage s.xlen v) with legal | zero
  · exact selectsLegal_of_tdata3Legal s.cfg t.impl t.tdata1.view _ legal
  · rw [State.newTdata3, zero]
    exact Textra.selectsLegal_zero s.cfg t.impl

theorem mhselectLegal_iff (cfg : Config) (p : TrigImpl) (v : BitVec 3) :
    mhselectLegal cfg p v = true ↔
      v = 0 ∨ p.mhselects.contains v.toNat = true ∧ v ≠ 3 ∧ v ≠ 7 ∧ (cfg.hasH = true ∨ v = 4) := by
  simp only [mhselectLegal, Bool.or_eq_true, Bool.and_eq_true, beq_iff_eq, bne_iff_ne, and_assoc]

/-- Settles O34: what is stored has a legal `mhselect`, which is 0, or neither reserved nor, without the H extension, other than 4. -/
theorem reservedSelectsNeverStored : Obligations.ReservedSelectsNeverStored := by
  intro s i t v
  obtain ⟨mhselect, -⟩ := Bool.and_eq_true_iff.mp (s.newTdata3_selectsLegal i t v)
  rcases (mhselectLegal_iff s.cfg t.impl _).mp mhselect with zero | ⟨-, not3, not7, hypervisorOr4⟩
  · rw [zero]
    exact ⟨by decide, by decide, fun _ => .inl rfl⟩
  · refine ⟨not3, not7, fun noH => .inr ?_⟩
    rcases hypervisorOr4 with hasH | four
    · exact absurd (noH.symm.trans hasH) Bool.false_ne_true
    · exact four

end Sys2Proof.Machine
end

section
/-! Where an exception is taken (spec/60_exceptions.md section 4, R575): the mode it comes from and the two delegation registers
decide it, and under solution 2 the breakpoint's bit of `medeleg` counts as 0 (R576). -/

namespace Sys2Proof.Machine

theorem State.delegated_three_iff (s : State) :
    s.delegated 3 = true ↔
      s.host.medeleg.getLsbD 3 = true ∧ s.cfg.hasS = true ∧ s.cfg.reentrancy ≠ .tcontrol := by
  simp [State.delegated, and_assoc]

theorem State.hdelegated_iff (s : State) (code : Nat) :
    s.hdelegated code = true ↔ s.host.hedeleg.getLsbD code = true ∧ s.cfg.hasH = true :=
  Bool.and_eq_true_iff

/-- What is not delegated goes to M-mode, from every mode. -/
theorem State.trapTarget_of_not_delegated (s : State) (code : Nat) (kept : ¬ s.delegated code = true) :
    s.trapTarget code = .m := by
  cases mode : s.mode <;> simp only [State.trapTarget, mode, if_neg kept]

theorem State.trapTarget_of_delegated (s : State) (code : Nat) (delegated : s.delegated code = true)
    (mode : s.mode = .s ∨ s.mode = .u) : s.trapTarget code = .s := by
  rcases mode with mode | mode <;> simp only [State.trapTarget, mode, if_pos delegated]

theorem State.trapTarget_of_hdelegated (s : State) (code : Nat) (delegated : s.delegated code = true)
    (hdelegated : s.hdelegated code = true) (mode : s.mode = .vs ∨ s.mode = .vu) : s.trapTarget code = .vs := by
  rcases mode with mode | mode <;> simp only [State.trapTarget, mode, if_pos delegated, if_pos hdelegated]

/-- Settles O48: the breakpoint is delegated only with its bit of `medeleg` set and not under solution 2, and then the mode and
`hedeleg` say to which mode. -/
theorem breakpointDelegation : Obligations.BreakpointDelegation := by
  intro s
  refine ⟨fun clear => ?_, fun solution2 => ?_, fun notSolution2 hasS => ⟨fun set mode => ?_, fun set hset hasH mode => ?_⟩⟩
  · refine s.trapTarget_of_not_delegated 3 fun delegated => ?_
    obtain ⟨set, -, -⟩ := s.delegated_three_iff.mp delegated
    exact Bool.false_ne_true (clear.symm.trans set)
  · refine s.trapTarget_of_not_delegated 3 fun delegated => ?_
    obtain ⟨-, -, notSolution2⟩ := s.delegated_three_iff.mp delegated
    exact notSolution2 solution2
  · exact s.trapTarget_of_delegated 3 (s.delegated_three_iff.mpr ⟨set, hasS, notSolution2⟩) mode
  · exact s.trapTarget_of_hdelegated 3 (s.delegated_three_iff.mpr ⟨set, hasS, notSolution2⟩)
      ((s.hdelegated_iff 3).mpr ⟨hset, hasH⟩) mode

end Sys2Proof.Machine
end

section
/-! Decoding against encoding (spec/30_encoding.md R230, R232): the five fields fill the word, so a word is the encoding of the
fields it shows, and an encoding shows the fields it was made from. -/

namespace Sys2Proof.Laws

theorem encodeFields_src (csr : CsrAddr) (src : BitVec 5) (funct3 : BitVec 3) (rd : Reg) :
    (encodeFields csr src funct3 rd).extractLsb' 15 5 = src := by
  apply BitVec.eq_of_toNat_eq
  rw [BitVec.extractLsb'_toNat, encodeFields_toNat, Nat.shiftRight_eq_div_pow]
  have := src.isLt; have := funct3.isLt; have := rd.isLt
  omega

theorem encodeFields_funct3 (csr : CsrAddr) (src : BitVec 5) (funct3 : BitVec 3) (rd : Reg) :
    (encodeFields csr src funct3 rd).extractLsb' 12 3 = funct3 := by
  apply BitVec.eq_of_toNat_eq
  rw [BitVec.extractLsb'_toNat, encodeFields_toNat, Nat.shiftRight_eq_div_pow]
  have := funct3.isLt; have := rd.isLt
  omega

theorem encodeFields_rd (csr : CsrAddr) (src : BitVec 5) (funct3 : BitVec 3) (rd : Reg) :
    (encodeFields csr src funct3 rd).extractLsb' 7 5 = rd := by
  apply BitVec.eq_of_toNat_eq
  rw [BitVec.extractLsb'_toNat, encodeFields_toNat, Nat.shiftRight_eq_div_pow]
  have := rd.isLt
  omega

/-- A word of opcode SYSTEM is made of the fields it shows. -/
theorem encodeFields_extract (w : BitVec 32) (opcode : w.extractLsb' 0 7 = 0b1110011#7) :
    encodeFields (w.extractLsb' 20 12) (w.extractLsb' 15 5) (w.extractLsb' 12 3) (w.extractLsb' 7 5) = w := by
  have low := congrArg BitVec.toNat opcode
  apply BitVec.eq_of_toNat_eq
  rw [encodeFields_toNat]
  simp only [BitVec.extractLsb'_toNat, Nat.shiftRight_eq_div_pow, BitVec.toNat_ofNat] at low ⊢
  have := w.isLt
  omega

/-- The fields of a CSR instruction are read back from its word. -/
theorem decodeWord_encode (i : Instr) : decodeWord (encode i) = .ok i := by
  cases i <;>
    simp [decodeWord, encode, encodeFields_opcode, encodeFields_csr, encodeFields_src, encodeFields_funct3, encodeFields_rd]

/-- A word that decodes is the encoding of what it decodes to: its `funct3` is the one that the decoder has seen. -/
theorem encode_of_decodeWord (w : BitVec 32) (i : Instr) (decoded : decodeWord w = .ok i) : encode i = w := by
  unfold decodeWord at decoded
  dsimp only at decoded
  split at decoded
  case isTrue opcode =>
    have made (k : Nat) (funct3 : (w.extractLsb' 12 3).toNat = k) :
        encodeFields (w.extractLsb' 20 12) (w.extractLsb' 15 5) (BitVec.ofNat 3 k) (w.extractLsb' 7 5) = w := by
      rw [← funct3, BitVec.ofNat_toNat, BitVec.setWidth_eq]
      exact encodeFields_extract w opcode
    split at decoded <;> cases decoded <;> rename_i funct3 <;> exact made _ funct3
  case isFalse => cases decoded

/-- Settles O1: the word of an instruction decodes to it, and a word that decodes is made of the fields that were read. -/
theorem decodeInvertsEncode : Obligations.DecodeInvertsEncode := by
  intro w i
  constructor
  · exact encode_of_decodeWord w i
  · rintro rfl
    exact decodeWord_encode i

/-- Settles O2. -/
theorem decodeReadsSpecWords : Obligations.DecodeReadsSpecWords := by
  refine ⟨?_, ?_, ?_, ?_, ?_, ?_⟩ <;> decide

end Sys2Proof.Laws
end

section
/-! What a CSR write from each mode can reach of the triggers (spec/40_csr_access.md section 1 and section 5): the guard between
M-mode's chains and a debugger's triggers, a debugger's triggers themselves, and every trigger below M-mode. -/

namespace Sys2Proof.Machine

/-! ### Corresponding triggers before and after -/

/-- What hardware leaves of a list of triggers, at each index. -/
theorem evolves_get {cfg : Config} {ts us : List Trigger} (h : List.Forall₂ (Trigger.Evolves cfg) ts us) (i : Nat) (t u : Trigger)
    (ht : ts[i]? = some t) (hu : us[i]? = some u) : t.Evolves cfg u := by
  induction h generalizing i with
  | nil => cases ht
  | cons first _ ih =>
    cases i with
    | zero => cases ht; cases hu; exact first
    | succ i => exact ih i ht hu

/-- What hardware leaves of the triggers, read from the list after. -/
theorem evolves_get_before {cfg : Config} {ts us : List Trigger} (h : List.Forall₂ (Trigger.Evolves cfg) ts us) (i : Nat)
    (u : Trigger) (hu : us[i]? = some u) : ∃ t, ts[i]? = some t ∧ t.Evolves cfg u := by
  have inside : i < ts.length := h.length_eq ▸ (List.getElem?_eq_some_iff.mp hu).1
  exact ⟨ts[i], List.getElem?_eq_getElem inside, evolves_get h i _ u (List.getElem?_eq_getElem inside) hu⟩

/-! ### The guard -/

theorem previousLinks_succ (ts : List Trigger) (i : Nat) (t : Trigger) (ht : ts[i]? = some t) :
    previousLinks ts (i + 1) = (t.tdata1.isLink && !t.tdata1.dmode) := by
  rw [previousLinks, ht]

/-- The guard, trigger by trigger: behind a link with `dmode` 0 stands no debugger's trigger. -/
theorem guarded_iff (ts : List Trigger) : guarded ts = true ↔ ∀ (i : Nat) (t u : Trigger), ts[i]? = some t →
    ts[i + 1]? = some u → t.tdata1.isLink = true → t.tdata1.dmode = false → u.tdata1.dmode = false := by
  simp only [guarded, List.all_eq_true, List.mem_range]
  constructor
  · intro h i t u ht hu link dmode
    simpa [previousLinks_succ ts i t ht, hu, link, dmode] using h (i + 1) (List.getElem?_eq_some_iff.mp hu).1
  · intro h j inside
    cases j with
    | zero => rfl
    | succ i =>
      have hu := List.getElem?_eq_getElem inside
      have ht := List.getElem?_eq_getElem (i.lt_succ_self.trans inside)
      have kept := h i _ _ ht hu
      rw [previousLinks_succ ts i _ ht, hu]
      simpa [imp_iff_not_or, or_assoc] using kept

/-- Hardware changes neither a link nor a `dmode`. -/
theorem guarded_of_evolves {cfg : Config} {ts us : List Trigger} (h : List.Forall₂ (Trigger.Evolves cfg) ts us)
    (guard : guarded ts = true) : guarded us = true := by
  rw [guarded_iff] at guard ⊢
  intro i t u ht hu link dmode
  obtain ⟨t', ht', evolvesT⟩ := evolves_get_before h i t ht
  obtain ⟨u', hu', evolvesU⟩ := evolves_get_before h (i + 1) u hu
  rw [evolvesU.dmode]
  exact guard i t' u' ht' hu' (evolvesT.link ▸ link) (evolvesT.dmode ▸ dmode)

/-- What is stored is no link before a debugger's trigger, unless it is the debugger's itself (R292). -/
theorem State.newTdata1_not_link (s : State) (i : Nat) (t u : Trigger) (v : Word) (debug : Bool) (n : Tdata1)
    (stored : s.newTdata1 i t v debug = some n) (next : s.trigs[i + 1]? = some u) (link : n.isLink = true)
    (dmode : n.dmode = false) : u.tdata1.dmode = false := by
  cases debuggers : u.tdata1.dmode with
  | false => rfl
  | true =>
    have unlinked := chainIntoDebuggersTriggerZeroed s i t u v debug n stored next debuggers dmode
    rw [unlinked] at link
    cases link

/-- Behind a link with `dmode` 0 a write sets no `dmode` (R293). -/
theorem State.newTdata1_not_dmode (s : State) (i : Nat) (t u : Trigger) (v : Word) (debug : Bool) (n : Tdata1)
    (ignores : s.cfg.ignoreDmodeSetAfterChain = true) (stored : s.newTdata1 (i + 1) u v debug = some n)
    (before : s.trigs[i]? = some t) (link : t.tdata1.isLink = true) (dmode : t.tdata1.dmode = false)
    (was : u.tdata1.dmode = false) : n.dmode = false := by
  cases set : n.dmode with
  | false => rfl
  | true =>
    obtain ⟨-, value⟩ := s.newTdata1_some (i + 1) u v debug n stored
    have ignored : s.ignoresDmodeSet (i + 1) u.tdata1 n = true := by
      simp [State.ignoresDmodeSet, ignores, set, was, previousLinks_succ _ i t before, link, dmode]
    rw [value] at ignored
    simp [State.newTdata1, ignored] at stored

/-- What a write to `tdata1` of trigger `k` leaves at each index. -/
theorem State.storeTdata1_get (s : State) (k : Nat) (n : Tdata1) (i : Nat) :
    (s.storeTdata1 k n).trigs[i]? =
      (s.trigs[i]?).map fun t => if i = k then { t with tdata1 := n, extHeld := false } else t := by
  rw [s.storeTdata1_trigs, State.modifyTrig_get]

/-- Storing a value that is neither such a link nor such a `dmode` keeps the guard. -/
theorem State.guarded_storeTdata1 (s : State) (k : Nat) (n : Tdata1) (guard : guarded s.trigs = true)
    (asLink : ∀ u, s.trigs[k + 1]? = some u → n.isLink = true → n.dmode = false → u.tdata1.dmode = false)
    (asNext : ∀ i t, k = i + 1 → s.trigs[i]? = some t → t.tdata1.isLink = true → t.tdata1.dmode = false →
      n.dmode = false) :
    guarded (s.storeTdata1 k n).trigs = true := by
  rw [guarded_iff] at guard ⊢
  intro i t u ht hu link dmode
  rw [s.storeTdata1_get, Option.map_eq_some_iff] at ht hu
  obtain ⟨t', ht', rfl⟩ := ht
  obtain ⟨u', hu', rfl⟩ := hu
  by_cases first : i = k
  · subst first
    simp only [if_true] at link dmode
    simpa using asLink u' hu' link dmode
  · rw [if_neg first] at link dmode
    by_cases second : i + 1 = k
    · simpa [second] using asNext i t' second.symm ht' link dmode
    · simpa [second] using guard i t' u' ht' hu' link dmode

/-- No CSR write breaks the guard. -/
theorem State.guarded_writeCsr (s : State) (c : TmCsr) (v : Word) (ignores : s.cfg.ignoreDmodeSetAfterChain = true)
    (guard : guarded s.trigs = true) : guarded (s.writeCsr c v).1.trigs = true := by
  by_cases register : c = .tdata1
  · subst register
    change guarded (s.writeTdata1 v).1.trigs = true
    rcases s.writeTdata1_cases v with ignored | ⟨t, n, selected, stored, written⟩
    · rwa [ignored]
    · rw [written]
      have selected : s.trigs[s.tselect.toNat]? = some t := selected
      refine s.guarded_storeTdata1 _ n guard (fun u next => s.newTdata1_not_link _ t u v _ n stored next) ?_
      intro i u here before link dmode
      rw [here] at selected stored
      exact s.newTdata1_not_dmode i u t v _ n ignores stored before link dmode
        ((guarded_iff _).mp guard i u t before selected link dmode)
  · rw [guarded_iff] at guard ⊢
    intro i t u ht hu link dmode
    have before (j : Nat) (w : Trigger) (hw : (s.writeCsr c v).1.trigs[j]? = some w) :
        ∃ w', s.trigs[j]? = some w' ∧ w.tdata1 = w'.tdata1 := by
      have inside : j < s.trigs.length := by simpa using (List.getElem?_eq_some_iff.mp hw).1
      have old := List.getElem?_eq_getElem inside
      obtain ⟨w', hw', -, same⟩ := s.writeCsr_get c v j _ old
      obtain rfl : w' = w := Option.some.inj (hw'.symm.trans hw)
      exact ⟨_, old, same.tdata1 register⟩
    obtain ⟨t', ht', sameT⟩ := before i t ht
    obtain ⟨u', hu', sameU⟩ := before (i + 1) u hu
    rw [sameT] at link dmode
    rw [sameU]
    exact guard i t' u' ht' hu' link dmode

/-- Settles O58: hardware changes neither a link nor a `dmode`, and the interlocks R292 and R293 keep the guard over a write. -/
theorem stepKeepsTheGuard : Obligations.StepKeepsTheGuard := by
  intro s t ignores guard run
  rcases step_cases s t run with kept | ⟨u, c, v, before, -, -, -, after⟩
  · exact guarded_of_evolves kept.trigs guard
  · exact guarded_of_evolves after.trigs
      (u.guarded_writeCsr c v (before.cfg ▸ ignores) (guarded_of_evolves before.trigs guard))

/-! ### A debugger's triggers -/

/-- Outside Debug Mode a write reaches no trigger with `dmode` = 1 (R289). -/
theorem State.writeCsr_get_of_dmode (s : State) (c : TmCsr) (v : Word) (i : Nat) (t : Trigger) (outside : s.mode ≠ .debug)
    (ht : s.trigs[i]? = some t) (dmode : t.tdata1.dmode = true) : (s.writeCsr c v).1.trigs[i]? = some t := by
  have notDebug : (s.mode == .debug) = false := by simpa using outside
  by_cases here : i = s.tselect.toNat
  · have selected : s.selected = some t := by rwa [State.selected, ← here]
    have forbidden : s.mayWrite t = false := by simp [State.mayWrite, notDebug, dmode]
    have same : (s.writeCsr c v).1.trigs = s.trigs := by
      cases c with
      | tdata1 => simp [State.writeCsr, State.writeTdata1, selected, State.newTdata1, notDebug, dmode]
      | tdata2 => simp [State.writeCsr, State.writeTdata2, selected, forbidden]
      | tdata3 => simp [State.writeCsr, State.writeTdata3, selected, forbidden]
      | tselect | tinfo | tcontrol | scontext | mscontext | mcontext | hcontext => rfl
    rw [same, ht]
  · obtain ⟨u, hu, unselected, -⟩ := s.writeCsr_get c v i t ht
    rw [hu, unselected here]

/-- Outside Debug Mode no write changes a `dmode` (R288). -/
theorem State.writeCsr_get_dmode (s : State) (c : TmCsr) (v : Word) (i : Nat) (t u : Trigger) (outside : s.mode ≠ .debug)
    (ht : s.trigs[i]? = some t) (hu : (s.writeCsr c v).1.trigs[i]? = some u) : u.tdata1.dmode = t.tdata1.dmode := by
  by_cases register : c = .tdata1
  · subst register
    obtain ⟨-, dmodes⟩ := machineWriteKeepsDmode s v outside
    have here := congrArg (fun l => l[i]?) dmodes
    simpa only [List.getElem?_map, hu, ht, Option.map_some, Option.some_inj] using here
  · obtain ⟨w, hw, -, same⟩ := s.writeCsr_get c v i t ht
    obtain rfl : w = u := Option.some.inj (hw.symm.trans hu)
    rw [same.tdata1 register]

/-- Hardware keeps every configuration. -/
theorem ownersKept_of_evolves {cfg : Config} {ts us : List Trigger} (h : List.Forall₂ (Trigger.Evolves cfg) ts us) :
    ownersKept ts us := by
  refine ⟨h.length_eq.symm, fun i t u ht hu => ?_⟩
  have evolves := evolves_get h i t u ht hu
  exact ⟨evolves.dmode, fun _ => evolves.sameConfig⟩

/-- Settles O59: hardware keeps every configuration, and no write from outside Debug Mode reaches a debugger's trigger or a
`dmode`. -/
theorem debuggersTriggersAreKept : Obligations.DebuggersTriggersAreKept := by
  intro s t outside run
  rcases step_cases s t run with kept | ⟨u, c, v, before, mode, -, -, after⟩
  · exact ownersKept_of_evolves kept.trigs
  · have outside : u.mode ≠ .debug := mode ▸ outside
    have cfg : (u.writeCsr c v).1.cfg = s.cfg := (u.writeCsr_cfg c v).trans before.cfg
    refine ⟨?_, fun i a d ha hd => ?_⟩
    · rw [← after.trigs.length_eq, u.writeCsr_length, ← before.trigs.length_eq]
    · obtain ⟨w, hw, last⟩ := evolves_get_before after.trigs i d hd
      have inside : i < u.trigs.length := before.trigs.length_eq ▸ (List.getElem?_eq_some_iff.mp ha).1
      have hb := List.getElem?_eq_getElem inside
      have first := evolves_get before.trigs i a _ ha hb
      have dmode := u.writeCsr_get_dmode c v i _ w outside hb hw
      refine ⟨last.dmode.trans (dmode.trans first.dmode), fun debuggers => ?_⟩
      have unreached := u.writeCsr_get_of_dmode c v i _ outside hb (first.dmode.trans debuggers)
      obtain rfl : u.trigs[i] = w := Option.some.inj (unreached.symm.trans hw)
      exact (first.trans (cfg ▸ last)).sameConfig

/-! ### Below M-mode -/

/-- Below M-mode no access but that of a context from S-mode, and of `scontext` from VS-mode, is allowed (R271). -/
theorem State.permission_below_machine (s : State) (c : TmCsr) (below : s.mode.isMachine = false)
    (allowed : s.permission c = .allowed) :
    c.isContext = true ∧ s.mode.isUser = false ∧ (s.mode ≠ .s → c = .scontext) := by
  unfold State.permission at allowed
  split at allowed
  case isFalse => cases allowed
  case isTrue =>
    unfold State.permissionByMode at allowed
    have refusedV : s.refusedV c ≠ .allowed := by unfold State.refusedV; split <;> simp
    cases mode : s.mode with
    | m | debug => rw [mode] at below; cases below
    | s =>
      rw [mode] at allowed
      refine ⟨?_, rfl, fun other => absurd rfl other⟩
      cases c with
      | scontext | mscontext | hcontext => rfl
      | tselect | tdata1 | tdata2 | tdata3 | tinfo | tcontrol | mcontext => cases allowed
    | vs =>
      rw [mode] at allowed
      cases c with
      | scontext => exact ⟨rfl, rfl, fun _ => rfl⟩
      | mscontext | hcontext => exact absurd allowed refusedV
      | tselect | tdata1 | tdata2 | tdata3 | tinfo | tcontrol | mcontext => cases allowed
    | u => rw [mode] at allowed; cases allowed
    | vu => rw [mode] at allowed; exact absurd allowed refusedV

/-- Writing a context changes that context. -/
theorem State.writeCsr_context (s : State) (c : TmCsr) (v : Word) (context : c.isContext = true) :
    (s.writeCsr c v).1.tselect = s.tselect ∧ (s.writeCsr c v).1.trigs = s.trigs ∧
      (c = .scontext → (s.writeCsr c v).1.mcontext = s.mcontext) := by
  cases c with
  | scontext => exact ⟨rfl, rfl, fun _ => rfl⟩
  | mscontext | hcontext => exact ⟨rfl, rfl, fun other => by cases other⟩
  | tselect | tdata1 | tdata2 | tdata3 | tinfo | tcontrol | mcontext => cases context

theorem sameConfig_of_evolves {cfg : Config} {ts us : List Trigger} (h : List.Forall₂ (Trigger.Evolves cfg) ts us) :
    List.Forall₂ (fun a b => a.sameConfig b = true) ts us :=
  h.imp fun _ _ evolves => evolves.sameConfig

/-- Settles O60: below M-mode the only write that is allowed is to a context, from S-mode or, to `scontext`, from VS-mode. -/
theorem lowerModesReachNothing : Obligations.LowerModesReachNothing := by
  intro s t below run
  rcases step_cases s t run with kept | ⟨u, c, v, before, mode, -, allowed, after⟩
  · exact ⟨kept.tselect, kept.cfg, sameConfig_of_evolves kept.trigs, fun _ => kept.mcontext, fun _ => kept.scontext⟩
  · obtain ⟨context, notUser, fromVs⟩ := u.permission_below_machine c (mode ▸ below) allowed
    rw [mode] at notUser fromVs
    obtain ⟨tselect, trigs, mcontext⟩ := u.writeCsr_context c v context
    have cfg := (u.writeCsr_cfg c v).trans before.cfg
    have evolves := evolves_trans before.trigs (trigs ▸ cfg ▸ after.trigs)
    refine ⟨after.tselect.trans (tselect.trans before.tselect), after.cfg.trans cfg, sameConfig_of_evolves evolves, ?_, ?_⟩
    · exact fun notS => after.mcontext.trans ((mcontext (fromVs notS)).trans before.mcontext)
    · intro user
      rw [notUser] at user
      cases user

end Sys2Proof.Machine
end

section
/-! What a write stores in `tdata2` and `tdata3` (spec/40_csr_access.md R297 to R300): a legal value, and in place of an invalid
address no valid one where the register can hold another (spec/20_memory.md R204). -/

namespace Sys2Proof.Machine

/-! ### `tdata2` -/

/-- An XLEN-bit value is below `2^XLEN`. -/
theorem toNat_lt_of_trunc (x : Xlen) (v : Word) (fits : x.trunc v = v) : v.toNat < 2 ^ x.bits := by
  cases x with
  | x32 =>
    rw [← fits]
    simp only [Xlen.trunc, BitVec.toNat_setWidth, BitVec.extractLsb'_toNat, Xlen.bits]
    omega
  | x64 => exact v.isLt

theorem tdata2Mask_eq_none (p : TrigImpl) (view : View) (not4 : view.typ ≠ 4) (not5 : view.typ ≠ 5) :
    tdata2Mask p view = none := by
  cases view with
  | itrigger => exact absurd rfl not4
  | etrigger => exact absurd rfl not5
  | mcontrol | icount | mcontrol6 | tmext | disabled => rfl

theorem tdata2SubstituteOk_iff (cfg : Config) (p : TrigImpl) (view : View) (x : Xlen) (asked v : Word) :
    tdata2SubstituteOk cfg p view x asked v = true ↔ tdata2Legal cfg p view v = true ∧
      (view.asksAddress p = true → validAt cfg x asked = false → validAt cfg x v = false ∧ validAddr cfg v = false) := by
  simp only [tdata2SubstituteOk, Bool.and_eq_true, Bool.or_eq_true, Bool.not_eq_true']
  cases view.asksAddress p <;> cases validAt cfg x asked <;> simp

/-- A substitute is legal if the old value was. -/
theorem tdata2Legal_substitute (cfg : Config) (p : TrigImpl) (view : View) (x : Xlen) (old asked offered : Word)
    (legal : tdata2Legal cfg p view old = true) :
    tdata2Legal cfg p view (tdata2Substitute cfg p view x old asked offered) = true := by
  rcases tdata2Substitute_cases cfg p view x old asked offered with good | ⟨value, -⟩
  · exact ((tdata2SubstituteOk_iff _ _ _ _ _ _).mp good).1
  · rw [value]
    split
    case isTrue legalOffer => exact legalOffer
    case isFalse => exact legal

/-- Where some DXLEN-bit value is a good substitute, the one that is stored is. -/
theorem tdata2Substitute_ok (cfg : Config) (p : TrigImpl) (view : View) (x : Xlen) (old asked offered w : Word)
    (fits : cfg.dxlen.trunc w = w) (good : tdata2SubstituteOk cfg p view x asked w = true) :
    tdata2SubstituteOk cfg p view x asked (tdata2Substitute cfg p view x old asked offered) = true := by
  rcases tdata2Substitute_cases cfg p view x old asked offered with stored | ⟨-, none⟩
  · exact stored
  · rw [none w (toNat_lt_of_trunc _ w fits)] at good
    cases good

/-- What a write that is not masked and asks for no largest range stores: the value, if it is legal, or a substitute. -/
theorem legalizeTdata2_cases (cfg : Config) (p : TrigImpl) (i : Nat) (t1 : Tdata1) (x : Xlen) (old v : Word)
    (unmasked : tdata2Mask p t1.view = none) (plain : asksLargestNapot6 cfg t1.view v = false) :
    (tdata2Legal cfg p t1.view v = true ∧ legalizeTdata2 cfg p i t1 x old v = v) ∨
      ∃ offered, legalizeTdata2 cfg p i t1 x old v = tdata2Substitute cfg p t1.view x old v offered := by
  unfold legalizeTdata2
  simp only [unmasked, plain, Bool.false_eq_true, if_false]
  split
  case isTrue stored => exact .inl ⟨(Bool.and_eq_true_iff.mp stored).1, rfl⟩
  case isFalse => exact .inr ⟨_, rfl⟩

/-- Settles O32: the value itself is stored if it is legal and not refused; else a substitute, and the value `w` shows that a good
one exists. -/
theorem invalidAddressStaysInvalid : Obligations.InvalidAddressStaysInvalid := by
  intro cfg t i x old v not4 not5 plain
  have unmasked := tdata2Mask_eq_none t.impl t.tdata1.view not4 not5
  have outcome := legalizeTdata2_cases cfg t.impl i t.tdata1 x old v unmasked plain
  refine ⟨fun legalOld => ?_, fun legal kept => ?_, fun w address fits legalW invalidW invalidWide invalid => ?_⟩
  · rcases outcome with ⟨legal, stored⟩ | ⟨offered, stored⟩
    · rwa [stored]
    · rw [stored]
      exact tdata2Legal_substitute cfg t.impl t.tdata1.view x old v offered legalOld
  · exact legalizeTdata2_legal cfg t.impl i t.tdata1 x old v unmasked legal kept
  · rcases outcome with ⟨legal, stored⟩ | ⟨offered, stored⟩
    · rw [stored]
      exact ⟨invalid, id, legal⟩
    · have good := (tdata2SubstituteOk_iff cfg t.impl t.tdata1.view x v w).mpr ⟨legalW, fun _ _ => ⟨invalidW, invalidWide⟩⟩
      have ok := tdata2Substitute_ok cfg t.impl t.tdata1.view x old v offered w fits good
      obtain ⟨legal, stays⟩ := (tdata2SubstituteOk_iff _ _ _ _ _ _).mp ok
      obtain ⟨narrow, wide⟩ := stays address invalid
      rw [stored]
      exact ⟨narrow, fun _ => wide, legal⟩

/-- The index of the lowest 0 bit. -/
theorem lowestZero_eq_some_iff (n : Nat) (v : Word) (z : Nat) :
    lowestZero n v = some z ↔ z < n ∧ v.getLsbD z = false ∧ ∀ b, b < z → v.getLsbD b = true := by
  simp only [lowestZero, List.find?_range_eq_some, List.mem_range, Bool.not_eq_true', Bool.not_not]
  tauto

/-- The largest NAPOT range has its lowest 0 bit just below its size. -/
theorem lowestZero_napot6Largest (cfg : Config) (p : TrigImpl) (fits : p.maskmax6 < cfg.dxlen.bits) :
    lowestZero cfg.dxlen.bits (napot6Largest cfg p) = some (p.maskmax6 - 1) := by
  have ones (b : Nat) (hb : b < cfg.dxlen.bits) : cfg.dxlen.allOnes.getLsbD b = true := by
    cases d : cfg.dxlen with
    | x32 =>
      rw [d] at hb
      exact (by decide : ∀ b < 32, (0xffffffff#64).getLsbD b = true) b hb
    | x64 =>
      rw [d] at hb
      exact (by decide : ∀ b < 64, (0xffffffffffffffff#64).getLsbD b = true) b hb
  have width : cfg.dxlen.bits ≤ 64 := by cases cfg.dxlen <;> decide
  rw [lowestZero_eq_some_iff]
  refine ⟨by omega, ?_, fun b below => ?_⟩
  · have inside : p.maskmax6 - 1 < 64 := by omega
    simp [napot6Largest, inside]
  · have inside : b < 64 := by omega
    have other : ¬ p.maskmax6 - 1 ≤ b := by omega
    simp [napot6Largest, ones b (by omega), inside, below]

/-- The largest NAPOT range of type 6 is legal under the match that asks for it (spec/44_mcontrol6.md R451). -/
theorem tdata2Legal_napot6Largest (cfg : Config) (p : TrigImpl) (dmode : Bool) (f : Mcontrol6) (fits : wfNapot6 cfg p = true)
    (fields : (View.mcontrol6 f).fieldsLegal cfg p dmode = true) (napot : f.matchOp = 1) :
    tdata2Legal cfg p (.mcontrol6 f) (napot6Largest cfg p) = true := by
  simp only [View.fieldsLegal, Bool.and_eq_true] at fields
  obtain ⟨⟨⟨type, -⟩, op⟩, -⟩ := fields
  have nonzero : p.maskmax6 ≠ 0 := by
    intro zero
    simp [matchLegal, napot, zero] at op
  have found := lowestZero_napot6Largest cfg p (of_decide_eq_true fits)
  have range : napot6Ok cfg p (napot6Largest cfg p) = true := by
    simp only [napot6Ok, found, decide_eq_true_eq]
    omega
  have base (g : Mcontrol6) (asks : g.matchOp = 1) : tdata2Base cfg p (.mcontrol6 g) (napot6Largest cfg p) = true := by
    simp [tdata2Base, View.isNapot, asks, range]
  have must (g : Mcontrol6) (asks : g.matchOp = 1) : mustHold cfg p (.mcontrol6 g) (napot6Largest cfg p) = true := by
    simp [mustHold, asks]
  have byType (g : Mcontrol6) (asks : g.matchOp = 1) : heldByType cfg p (.mcontrol6 g) (napot6Largest cfg p) = true := by
    rw [heldByType, base g asks, must g asks, Bool.true_or, Bool.and_self]
  unfold tdata2Legal
  split
  · have held := heldByMatch_of cfg p p.mcontrol6 _ (fun sel op => .mcontrol6 { select := sel, matchOp := op }) f.select f.matchOp
      (napot6Largest cfg p) op (byType _ napot)
    simp only [tdata2LegalForSome, type, held, Bool.true_and, Bool.true_or, Bool.or_true]
  · simp [base f napot, must f napot]

/-- The implemented bits of a value are legal in the `tdata2` of a trigger of type 4 or 5 (R299). -/
theorem tdata2Legal_masked (cfg : Config) (p : TrigImpl) (dmode : Bool) (view : View) (mask v : Word)
    (masked : tdata2Mask p view = some mask) (fields : view.fieldsLegal cfg p dmode = true) :
    tdata2Legal cfg p view (v &&& mask) = true := by
  cases view with
  | itrigger f =>
    cases masked
    simp only [View.fieldsLegal, Bool.and_eq_true] at fields
    obtain ⟨type, -⟩ := fields
    unfold tdata2Legal
    split <;> simp [tdata2LegalForSome, heldByType, tdata2Base, mustHold, type, BitVec.and_assoc]
  | etrigger f =>
    cases masked
    simp only [View.fieldsLegal, Bool.and_eq_true] at fields
    obtain ⟨type, -⟩ := fields
    unfold tdata2Legal
    split <;> simp [tdata2LegalForSome, heldByType, tdata2Base, mustHold, type, BitVec.and_assoc]
  | mcontrol | icount | mcontrol6 | tmext | disabled => cases masked

/-- A write that asks for all ones under the NAPOT match of type 6. -/
theorem asksLargestNapot6_iff (cfg : Config) (view : View) (v : Word) :
    asksLargestNapot6 cfg view v = true ↔ ∃ f, view = .mcontrol6 f ∧ f.matchOp = 1 ∧ v = cfg.dxlen.allOnes := by
  cases view <;> simp [asksLargestNapot6]

/-- What a write stores in the `tdata2` of a legal trigger is legal, whatever the trigger's type. -/
theorem tdata2Legal_legalizeTdata2 (cfg : Config) (t : Trigger) (i : Nat) (x : Xlen) (v : Word)
    (napot6 : wfNapot6 cfg t.impl = true) (legal : trigLegal cfg t = true) :
    tdata2Legal cfg t.impl t.tdata1.view (legalizeTdata2 cfg t.impl i t.tdata1 x t.tdata2 v) = true := by
  obtain ⟨-, fields, legal2, -⟩ := (trigLegal_iff cfg t).mp legal
  cases mask : tdata2Mask t.impl t.tdata1.view with
  | some m =>
    simp only [legalizeTdata2, mask]
    exact tdata2Legal_masked cfg t.impl _ _ m v mask fields
  | none =>
    cases largest : asksLargestNapot6 cfg t.tdata1.view v with
    | false =>
      rcases legalizeTdata2_cases cfg t.impl i t.tdata1 x t.tdata2 v mask largest with ⟨ok, stored⟩ | ⟨offered, stored⟩
      · rwa [stored]
      · rw [stored]
        exact tdata2Legal_substitute cfg t.impl _ x _ v offered legal2
    | true =>
      obtain ⟨f, view, napot, -⟩ := (asksLargestNapot6_iff cfg _ v).mp largest
      simp only [legalizeTdata2, mask, largest, if_true]
      split
      case isTrue stored => exact (Bool.and_eq_true_iff.mp stored).1
      case isFalse =>
        rw [Tdata1.fieldsLegal, view] at fields
        rw [view]
        exact tdata2Legal_napot6Largest cfg t.impl _ f napot6 fields napot

/-! ### `tdata3` -/

/-- 0 is legal in the `tdata3` of any trigger that supports a type with a meaning (R300). -/
theorem tdata3Legal_zero_of_has (cfg : Config) (p : TrigImpl) (view : View) (info : wfInfo p = true) (n : Nat)
    (has : p.has n = true) : tdata3Legal cfg p view {} = true := by
  by_cases disabled : view.isDisabledForm p = true
  · obtain ⟨w, mem, typ⟩ : ∃ w ∈ typeViews, w.typ = n := by
      rcases typ_of_has p info n has with rfl | rfl | rfl | rfl | rfl | rfl | rfl <;> simp [typeViews, View.typ]
    have type : supportsType p w.typ = true := typ ▸ has
    rw [tdata3Legal, if_pos disabled]
    have base : tdata3Base cfg p w {} = true := by
      rw [tdata3Base, Textra.normal_zero, Textra.selectsLegal_zero, beq_self_eq_true, Bool.and_self]
    have kept : excludedTdata3ByType p w {} = false := by simp [excludedTdata3ByType]
    exact List.any_eq_true.mpr ⟨w, mem, by rw [type, base, kept]; rfl⟩
  · exact tdata3Legal_zero cfg p view (Bool.not_eq_true _ ▸ disabled)

/-- What a write stores in `tdata3` is legal. -/
theorem tdata3Legal_legalizeTdata3 (cfg : Config) (p : TrigImpl) (i : Nat) (t1 : Tdata1) (x : Xlen) (old v : Textra)
    (info : wfInfo p = true) (reset : p.has p.resetType = true) :
    tdata3Legal cfg p t1.view (legalizeTdata3 cfg p i t1 x old v) = true := by
  rcases legalizeTdata3_cases cfg p i t1 x old v with legal | zero
  · exact legal
  · rw [zero]
    exact tdata3Legal_zero_of_has cfg p t1.view info _ reset

end Sys2Proof.Machine
end

section
/-! The invariant (spec/40_csr_access.md section 4, spec/10_state.md section 8): every evaluation that stops and every item that ends
leaves no instruction in progress, hardware keeps a legal trigger legal, and so does every CSR write. -/

namespace Sys2Proof.Machine

/-! ### No instruction is left in progress -/

theorem State.atBoundary_iff (s : State) : s.atBoundary = true ↔ s.matched = [] ∧ s.dueAfter = [] ∧ s.deferred = [] := by
  simp only [State.atBoundary, Bool.and_eq_true, List.isEmpty_iff, and_assoc]

theorem State.atBoundary_raise (s : State) (code : Nat) (v : Word) : (s.raise code v).atBoundary = true := by
  simp [State.atBoundary_iff]

theorem State.atBoundary_takeBreakpoint (s : State) (ds : List Due) : (s.takeBreakpoint ds).atBoundary = true := by
  simp [State.atBoundary_iff]

theorem State.atBoundary_enterDebug (s : State) : s.enterDebug.atBoundary = true := by
  simp [State.atBoundary_iff]

theorem State.atBoundary_retire (was s : State) (w : Option Nat) : (State.retire was s w).atBoundary = true := rfl

/-- An evaluation that stops leaves no instruction in progress. -/
def Progress.StopsAtBoundary : Progress → Prop
  | .go _ => True
  | .stop t => t.atBoundary = true
  | .refuse _ => True

theorem State.act_stopsAtBoundary (s : State) (ds : List Due) : (s.act ds).StopsAtBoundary := by
  unfold State.act
  split
  · split
    · split
      · exact State.atBoundary_enterDebug _
      · trivial
    · exact s.atBoundary_enterDebug
  · split
    · exact s.atBoundary_takeBreakpoint ds
    · trivial

theorem State.serve_stopsAtBoundary (s : State) (ds : List Due) : (s.serve ds).StopsAtBoundary := by
  unfold State.serve
  split
  · trivial
  · exact State.act_stopsAtBoundary _ ds

theorem State.observe_stopsAtBoundary (s : State) (e : Event) (r : Rank) : (s.observe e r).StopsAtBoundary := by
  unfold State.observe
  split
  · trivial
  · split
    · trivial
    · split
      · trivial
      · unfold State.followUp
        split
        · trivial
        · exact State.serve_stopsAtBoundary _ _

theorem State.stopAt_stopsAtBoundary (s : State) (h : HostInsn) (k : Nat) (p : Progress) (stops : p.StopsAtBoundary) :
    (s.stopAt h k p).StopsAtBoundary := by
  cases p with
  | go t => trivial
  | stop t => exact stops
  | refuse r => trivial

theorem State.perform_stopsAtBoundary (s : State) (h : HostInsn) (k : Nat) (a : Access) (e : Option Event) :
    (s.perform h k a e).StopsAtBoundary := by
  unfold State.perform
  split
  · exact State.atBoundary_raise _ _ _
  · split
    · exact State.stopAt_stopsAtBoundary _ _ _ _ (s.observe_stopsAtBoundary _ _)
    · trivial

theorem State.runAccess_stopsAtBoundary (s : State) (h : HostInsn) (k : Nat) (a : Access) :
    (s.runAccess h k a).StopsAtBoundary := by
  unfold State.runAccess
  split
  · exact s.perform_stopsAtBoundary h k a none
  case h_2 e _ =>
    have observed := s.observe_stopsAtBoundary e .accessBefore
    split
    · exact State.perform_stopsAtBoundary _ h k a (some e)
    case h_2 t stopped =>
      rw [stopped] at observed
      exact s.stopAt_stopsAtBoundary h k (.stop t) observed
    · trivial

theorem State.runAccesses_stopsAtBoundary (s : State) (h : HostInsn) (k : Nat) (l : List Access) :
    (s.runAccesses h k l).StopsAtBoundary := by
  induction l generalizing s k with
  | nil => trivial
  | cons a rest ih =>
    have first := State.runAccess_stopsAtBoundary s.tick h k a
    unfold State.runAccesses
    split
    case h_1 t _ => exact ih t (k + 1)
    case h_2 t stopped => rwa [stopped] at first
    · trivial

/-- An outcome with a next state has no instruction in progress there. -/
def EndsAtBoundary (o : Host.Outcome State Fault Refusal) : Prop := ∀ t, o = .next t → t.atBoundary = true

theorem endsAtBoundary_next (t : State) (idle : t.atBoundary = true) : EndsAtBoundary (.next t) := by
  rintro _ ⟨⟩
  exact idle

theorem Progress.andThen_endsAtBoundary (p : Progress) (f : State → Host.Outcome State Fault Refusal)
    (stops : p.StopsAtBoundary) (ends : ∀ t, EndsAtBoundary (f t)) : EndsAtBoundary (p.andThen f) := by
  cases p with
  | go t => exact ends t
  | stop t => exact endsAtBoundary_next _ stops
  | refuse r => intro t next; cases next

/-- A CSR instruction retires or raises its exception. -/
theorem State.atBoundary_csrInstr (s : State) (op : CsrOp) : (s.csrInstr op).atBoundary = true := by
  cases permission : s.csrPermission op.csr with
  | allowed =>
    rw [s.csrInstr_allowed op permission]
    exact State.atBoundary_retire s (s.csrEffect op).1 (s.csrEffect op).2
  | refused code =>
    rw [s.csrInstr_refused op code permission]
    exact State.atBoundary_raise _ _ _

theorem exec_endsAtBoundary (i : Instr) (s : State) : EndsAtBoundary (exec i s) := by
  obtain ⟨op, -, run⟩ := exec_next i s
  rw [run]
  exact endsAtBoundary_next _ (s.atBoundary_csrInstr op)

theorem withHost_endsAtBoundary (n : Option HostCsrs) (o : Host.Outcome State Fault Refusal) (ends : EndsAtBoundary o) :
    EndsAtBoundary (withHost n o) := by
  cases n with
  | none => exact ends
  | some h =>
    cases o with
    | next t => exact endsAtBoundary_next _ (ends t rfl)
    | fault r => exact ends
    | refused r => exact ends

theorem State.runDecoded_endsAtBoundary (s : State) (h : HostInsn) : EndsAtBoundary (s.runDecoded h) := by
  have fault (code : Nat) : EndsAtBoundary (.next (s.hostFault code).endItem) :=
    endsAtBoundary_next _ (s.atBoundary_raise _ _)
  unfold State.runDecoded
  split
  · unfold State.runCsrInsn
    split
    · exact exec_endsAtBoundary _ s
    · split
      · exact fault _
      · exact withHost_endsAtBoundary _ _ (exec_endsAtBoundary _ s)
  · unfold State.runHostInsn
    split
    · exact fault _
    · exact Progress.andThen_endsAtBoundary _ _ (s.runAccesses_stopsAtBoundary h 0 _)
        fun t => endsAtBoundary_next _ (State.atBoundary_retire t (t.hostEffect h) none)

theorem State.runInsn_endsAtBoundary (s : State) (h : HostInsn) : EndsAtBoundary (s.runInsn h) := by
  refine Progress.andThen_endsAtBoundary _ _ (s.observe_stopsAtBoundary _ _) fun t => ?_
  split
  · exact endsAtBoundary_next _ (t.atBoundary_raise _ _)
  · exact Progress.andThen_endsAtBoundary _ _ (t.observe_stopsAtBoundary _ _) fun u => u.runDecoded_endsAtBoundary h

theorem State.runNext_endsAtBoundary (s : State) (idle : s.atBoundary = true) : EndsAtBoundary s.runNext := by
  unfold State.runNext
  split
  · exact endsAtBoundary_next _ idle
  case h_2 item _ _ =>
    cases item with
    | insn h => exact s.runInsn_endsAtBoundary h
    | interrupt code nmi target =>
      refine endsAtBoundary_next _ ?_
      change (s.interrupted code nmi target).atBoundary = true
      unfold State.interrupted
      split
      · exact idle
      · simp [State.atBoundary_iff]
    | resume md pc =>
      refine endsAtBoundary_next _ ?_
      change (s.resumed md pc).atBoundary = true
      unfold State.resumed
      split <;> exact idle
    | extIn | intCtl | host => exact endsAtBoundary_next _ idle

theorem State.atBoundary_delivered (s : State) : s.delivered.atBoundary = s.atBoundary := by
  unfold State.delivered
  split <;> rfl

theorem State.boundary_stopsAtBoundary (s : State) (sigs : List HostItem) : (s.boundary sigs).StopsAtBoundary :=
  State.serve_stopsAtBoundary _ _

/-- A boundary that goes on starts no instruction. -/
theorem State.atBoundary_boundary_go (s t : State) (sigs : List HostItem) (idle : s.atBoundary = true)
    (goes : s.boundary sigs = .go t) : t.atBoundary = true := by
  obtain ⟨rfl, -⟩ := State.serve_go _ t _ goes
  simpa [State.atBoundary_iff] using idle

theorem step_endsAtBoundary (s : State) (idle : s.atBoundary = true) : EndsAtBoundary (step s) := by
  unfold step
  split
  case h_1 t goes =>
    refine State.runNext_endsAtBoundary _ ?_
    rw [State.atBoundary_delivered]
    exact s.atBoundary_boundary_go t _ idle goes
  case h_2 t stops =>
    refine endsAtBoundary_next _ ?_
    rw [State.atBoundary_delivered]
    have stopped := s.boundary_stopsAtBoundary (signalsAt s.feed)
    rwa [stops] at stopped
  · intro t next
    cases next

/-! ### The registers -/

/-- The clauses of the invariant that speak of registers. -/
structure State.RegistersLegal (s : State) : Prop where
  wf : wf s.cfg s.impls = true
  trigs : ∀ t ∈ s.trigs, trigLegal s.cfg t = true
  contexts : s.contextsLegal = true

theorem State.invariant_iff (s : State) : s.invariant = true ↔ s.RegistersLegal ∧ s.atBoundary = true := by
  simp only [State.invariant, Bool.and_eq_true, List.all_eq_true]
  exact ⟨fun ⟨⟨⟨a, b⟩, c⟩, d⟩ => ⟨⟨a, b, c⟩, d⟩, fun ⟨⟨a, b, c⟩, d⟩ => ⟨⟨⟨a, b⟩, c⟩, d⟩⟩

theorem State.contextsLegal_iff (s : State) : s.contextsLegal = true ↔
    s.scontext &&& lowOnes s.cfg.scontextBits = s.scontext ∧ s.mcontext &&& lowOnes s.cfg.mcontextBits = s.mcontext ∧
      (s.cfg.hasTcontrol = false → s.mte = false ∧ s.mpte = false) := by
  simp only [State.contextsLegal, Bool.and_eq_true, beq_iff_eq, Bool.or_eq_true, Bool.not_eq_true', and_assoc]
  cases s.cfg.hasTcontrol <;> simp

theorem impls_of_evolves {cfg : Config} {ts us : List Trigger} (h : List.Forall₂ (Trigger.Evolves cfg) ts us) :
    us.map Trigger.impl = ts.map Trigger.impl := by
  induction h with
  | nil => rfl
  | cons first _ ih => rw [List.map_cons, List.map_cons, first.impl, ih]

/-- What hardware does to the registers keeps them legal. -/
theorem State.RegistersLegal.of_kept {s t : State} (legal : s.RegistersLegal) (kept : s.Kept t) : t.RegistersLegal := by
  refine ⟨?_, fun u mem => ?_, ?_⟩
  · rw [State.impls, kept.cfg, impls_of_evolves kept.trigs]
    exact legal.wf
  · obtain ⟨i, hu⟩ := List.mem_iff_getElem?.mp mem
    obtain ⟨w, hw, evolves⟩ := evolves_get_before kept.trigs i u hu
    rw [kept.cfg]
    exact evolves.legal (legal.trigs w (List.mem_of_getElem? hw))
  · obtain ⟨sc, mc, tc⟩ := s.contextsLegal_iff.mp legal.contexts
    rw [State.contextsLegal_iff, kept.cfg, kept.scontext, kept.mcontext]
    refine ⟨sc, mc, fun absent => ?_⟩
    obtain ⟨mte, mpte⟩ := kept.tcontrol absent
    rw [mte, mpte]
    exact tc absent

theorem wfTrig_of_wf (cfg : Config) (impls : List TrigImpl) (h : wf cfg impls = true) (p : TrigImpl) (mem : p ∈ impls) :
    wfTrig cfg p = true := by
  simp only [wf, Bool.and_eq_true, and_assoc] at h
  obtain ⟨-, trigs, -⟩ := h
  exact List.all_eq_true.mp trigs p mem

theorem wfNapot6_of_wfTrig (cfg : Config) (p : TrigImpl) (h : wfTrig cfg p = true) : wfNapot6 cfg p = true := by
  simp only [wfTrig, Bool.and_eq_true, and_assoc] at h
  obtain ⟨-, -, -, -, -, napot6, -⟩ := h
  exact napot6

/-- A write to a `tdata` register leaves a legal trigger legal. -/
theorem State.trigLegal_writeCsr (s : State) (c : TmCsr) (v : Word) (legal : ∀ t ∈ s.trigs, trigLegal s.cfg t = true)
    (impls : ∀ t ∈ s.trigs, wfTrig s.cfg t.impl = true) : ∀ t ∈ (s.writeCsr c v).1.trigs, trigLegal s.cfg t = true := by
  /- One trigger is modified, and that keeps it legal. -/
  have modified (t : Trigger) (selected : s.trigs[s.tselect.toNat]? = some t) (g : Trigger → Trigger)
      (kept : trigLegal s.cfg (g t) = true) :
      ∀ u ∈ (s.modifyTrig s.tselect.toNat g).trigs, trigLegal s.cfg u = true := by
    intro u mem
    obtain ⟨i, hu⟩ := List.mem_iff_getElem?.mp mem
    rw [State.modifyTrig_get, Option.map_eq_some_iff] at hu
    obtain ⟨w, hw, rfl⟩ := hu
    by_cases here : i = s.tselect.toNat
    · obtain rfl : t = w := Option.some.inj (selected.symm.trans (here ▸ hw))
      rwa [if_pos here]
    · rw [if_neg here]
      exact legal w (List.mem_of_getElem? hw)
  cases c with
  | tdata1 =>
    change ∀ t ∈ (s.writeTdata1 v).1.trigs, _
    rcases s.writeTdata1_cases v with ignored | ⟨t, n, selected, stored, written⟩
    · rwa [ignored]
    · rw [written, s.storeTdata1_trigs]
      have mem := List.mem_of_getElem? selected
      obtain ⟨kept, -⟩ := storedTdata1IsLegal s _ t v _ n (impls t mem) (legal t mem) stored
      exact modified t selected _ kept
  | tdata2 =>
    change ∀ t ∈ (s.writeTdata2 v).trigs, _
    rcases s.writeTdata2_cases v with ignored | ⟨t, selected, -, written⟩
    · rwa [ignored]
    · rw [written]
      have mem := List.mem_of_getElem? selected
      obtain ⟨normal, fields, -, legal3⟩ := (trigLegal_iff s.cfg t).mp (legal t mem)
      refine modified t selected _ ((trigLegal_iff s.cfg _).mpr ⟨normal, fields, ?_, legal3⟩)
      exact tdata2Legal_legalizeTdata2 s.cfg t _ _ _ (wfNapot6_of_wfTrig s.cfg t.impl (impls t mem)) (legal t mem)
  | tdata3 =>
    change ∀ t ∈ (s.writeTdata3 v).trigs, _
    rcases s.writeTdata3_cases v with ignored | ⟨t, selected, -, written⟩
    · rwa [ignored]
    · rw [written]
      have mem := List.mem_of_getElem? selected
      obtain ⟨info, reset, -, -⟩ := wfTrig_parts s.cfg t.impl (impls t mem)
      obtain ⟨normal, fields, legal2, -⟩ := (trigLegal_iff s.cfg t).mp (legal t mem)
      refine modified t selected _ ((trigLegal_iff s.cfg _).mpr ⟨normal, fields, legal2, ?_⟩)
      exact tdata3Legal_legalizeTdata3 s.cfg t.impl _ t.tdata1 _ _ _ info reset
  | tselect | tinfo | tcontrol | scontext | mscontext | mcontext | hcontext => exact legal

theorem State.writeCsr_impls (s : State) (c : TmCsr) (v : Word) : (s.writeCsr c v).1.impls = s.impls := by
  apply List.ext_getElem?
  intro i
  rw [State.impls, State.impls, List.getElem?_map, List.getElem?_map]
  cases ht : s.trigs[i]? with
  | none =>
    have outside : (s.writeCsr c v).1.trigs[i]? = none := by
      rw [List.getElem?_eq_none_iff, s.writeCsr_length]
      exact List.getElem?_eq_none_iff.mp ht
    rw [outside]
  | some t =>
    obtain ⟨u, hu, -, same⟩ := s.writeCsr_get c v i t ht
    rw [hu, Option.map_some, Option.map_some, same.impl]

/-- A context keeps its implemented bits, and `tcontrol` can be written only where it exists. -/
theorem State.contextsLegal_writeCsr (s : State) (c : TmCsr) (v : Word) (present : c.existsIn s.cfg = true)
    (legal : s.contextsLegal = true) : (s.writeCsr c v).1.contextsLegal = true := by
  obtain ⟨sc, mc, tc⟩ := s.contextsLegal_iff.mp legal
  rw [State.contextsLegal_iff, s.writeCsr_cfg]
  cases c with
  | tdata1 | tdata2 | tdata3 => simpa [State.writeCsr] using ⟨sc, mc, tc⟩
  | tselect | tinfo => exact ⟨sc, mc, tc⟩
  | tcontrol => exact ⟨sc, mc, fun absent => absurd (present.symm.trans absent) (by decide)⟩
  | scontext | mscontext => exact ⟨by simp [State.writeCsr, BitVec.and_assoc], mc, tc⟩
  | mcontext | hcontext => exact ⟨sc, by simp [State.writeCsr, BitVec.and_assoc], tc⟩

theorem State.existsIn_of_allowed (s : State) (c : TmCsr) (allowed : s.permission c = .allowed) :
    c.existsIn s.cfg = true := by
  unfold State.permission at allowed
  split at allowed
  case isTrue present => exact present
  case isFalse => cases allowed

/-- A CSR write that the mode may make keeps the registers legal ("write-any-read-legal"). -/
theorem State.RegistersLegal.writeCsr {s : State} (legal : s.RegistersLegal) (c : TmCsr) (v : Word)
    (allowed : s.permission c = .allowed) : (s.writeCsr c v).1.RegistersLegal := by
  have impls (t : Trigger) (mem : t ∈ s.trigs) : wfTrig s.cfg t.impl = true :=
    wfTrig_of_wf s.cfg s.impls legal.wf t.impl (List.mem_map_of_mem mem)
  refine ⟨?_, ?_, s.contextsLegal_writeCsr c v (s.existsIn_of_allowed c allowed) legal.contexts⟩
  · rw [s.writeCsr_cfg, s.writeCsr_impls]
    exact legal.wf
  · rw [s.writeCsr_cfg]
    exact s.trigLegal_writeCsr c v legal.trigs impls

/-- Settles O57: a step does what hardware does, or that and one CSR write, and ends at an instruction boundary. -/
theorem stepKeepsTheInvariant : Obligations.StepKeepsTheInvariant := by
  intro s t invariant run
  obtain ⟨legal, idle⟩ := s.invariant_iff.mp invariant
  refine t.invariant_iff.mpr ⟨?_, step_endsAtBoundary s idle t run⟩
  rcases step_cases s t run with kept | ⟨u, c, v, before, -, -, allowed, after⟩
  · exact legal.of_kept kept
  · exact ((legal.of_kept before).writeCsr c v allowed).of_kept after

/-! ### Reset -/

theorem wfResetTdata2_of_wfTrig (cfg : Config) (p : TrigImpl) (h : wfTrig cfg p = true) :
    tdata2Legal cfg p (resetTdata1 cfg p).view p.resetTdata2 = true := by
  simp only [wfTrig, wfResetTdata2, Bool.and_eq_true] at h
  obtain ⟨⟨-, -, legal⟩, -⟩ := h
  exact legal

/-- A trigger resets to a supported configuration. -/
theorem trigLegal_resetTrigger (cfg : Config) (p : TrigImpl) (h : wfTrig cfg p = true) :
    trigLegal cfg (resetTrigger cfg p) = true := by
  obtain ⟨info, has, usable, timings⟩ := wfTrig_parts cfg p h
  refine (trigLegal_iff cfg _).mpr ⟨?_, ?_, wfResetTdata2_of_wfTrig cfg p h, tdata3Legal_zero_of_has cfg p _ info _ has⟩
  · exact congrArg (Tdata1.mk false) (View.normal_normal cfg p timings _)
  · exact blankView_fieldsLegal cfg p false 1 p.resetData info has usable

theorem State.resetWith_impls (cfg : Config) (impls : List TrigImpl) : (State.resetWith cfg impls).impls = impls := by
  have impl : Trigger.impl ∘ resetTrigger cfg = id := rfl
  simp [State.impls, State.resetWith, impl]

/-- Settles O54: each trigger resets to a legal configuration, and everything else to 0. -/
theorem resetMeetsTheInvariant : Obligations.ResetMeetsTheInvariant := by
  intro cfg impls h
  refine (State.invariant_iff _).mpr ⟨⟨?_, fun t mem => ?_, ?_⟩, rfl⟩
  · rw [State.resetWith_impls]
    exact h
  · obtain ⟨p, memP, rfl⟩ := List.mem_map.mp mem
    exact trigLegal_resetTrigger cfg p (wfTrig_of_wf cfg impls h p memP)
  · exact (State.contextsLegal_iff _).mpr ⟨BitVec.zero_and, BitVec.zero_and, fun _ => ⟨rfl, rfl⟩⟩

/-- Settles O55: the default configuration is well-formed, and no trigger resets to a link. -/
theorem resetStateMeetsTheInvariant : Obligations.ResetStateMeetsTheInvariant :=
  ⟨resetMeetsTheInvariant Config.default TrigImpl.defaults (by decide), by decide⟩

end Sys2Proof.Machine
end

section
/-! The images of `tdata1` and `tdata3` (spec/11_state_trigger_types.md, GK2): reading the bits of an image gives the fields it was
laid out from, in either XLEN. -/

namespace Sys2Proof.Machine

/-! ### The fields of each view, from the low bits they stand in -/

/-- A field, from its bits. -/
theorem extractLsb'_eq_of_bits {n : Nat} (v : Word) (p : Nat) (f : BitVec n)
    (bits : ∀ i, i < n → v.getLsbD (p + i) = f.getLsbD i) : v.extractLsb' p n = f := by
  apply BitVec.eq_of_getLsbD_eq
  intro i hi
  rw [BitVec.getLsbD_extractLsb', bits i hi]
  simp [hi]

theorem Mcontrol.ofLow_eq (f : Mcontrol) (sizehi : BitVec 2) (v : Word) (high : sizehi = f.size.extractLsb' 2 2)
    (low : ∀ i, i < 21 → v.getLsbD i = f.low.getLsbD i) : Mcontrol.ofLow f.maskmax sizehi v = f := by
  simp only [Mcontrol.low, BitVec.getLsbD_append, bit] at low
  have sizelo : v.extractLsb' 16 2 = f.size.extractLsb' 0 2 := extractLsb'_eq_of_bits v 16 _ fun i hi => by
    rw [low _ (by omega)]
    interval_cases i <;> simp
  have size : f.size.extractLsb' 2 2 ++ f.size.extractLsb' 0 2 = f.size := by
    apply BitVec.eq_of_getLsbD_eq
    intro i hi
    simp only [BitVec.getLsbD_append, BitVec.getLsbD_extractLsb']
    interval_cases i <;> simp
  have action : v.extractLsb' 12 4 = f.action := extractLsb'_eq_of_bits v 12 _ fun i hi => by
    rw [low _ (by omega)]
    interval_cases i <;> simp
  have matchOp : v.extractLsb' 7 4 = f.matchOp := extractLsb'_eq_of_bits v 7 _ fun i hi => by
    rw [low _ (by omega)]
    interval_cases i <;> simp
  simp only [Mcontrol.ofLow, high, sizelo, size, action, matchOp, low, Nat.reduceLT]
  simp

theorem Mcontrol6.ofLow_eq (f : Mcontrol6) (v : Word) (low : ∀ i, i < 27 → v.getLsbD i = f.low.getLsbD i) :
    Mcontrol6.ofLow v = f := by
  simp only [Mcontrol6.low, BitVec.getLsbD_append, bit] at low
  have size : v.extractLsb' 16 3 = f.size := extractLsb'_eq_of_bits v 16 _ fun i hi => by
    rw [low _ (by omega)]
    interval_cases i <;> simp
  have action : v.extractLsb' 12 4 = f.action := extractLsb'_eq_of_bits v 12 _ fun i hi => by
    rw [low _ (by omega)]
    interval_cases i <;> simp
  have matchOp : v.extractLsb' 7 4 = f.matchOp := extractLsb'_eq_of_bits v 7 _ fun i hi => by
    rw [low _ (by omega)]
    interval_cases i <;> simp
  simp only [Mcontrol6.ofLow, size, action, matchOp, low, Nat.reduceLT]
  simp

theorem Icount.ofLow_eq (f : Icount) (v : Word) (low : ∀ i, i < 27 → v.getLsbD i = f.low.getLsbD i) :
    Icount.ofLow v = f := by
  simp only [Icount.low, BitVec.getLsbD_append, bit] at low
  have count : v.extractLsb' 10 14 = f.count := extractLsb'_eq_of_bits v 10 _ fun i hi => by
    rw [low _ (by omega)]
    interval_cases i <;> simp
  have action : v.extractLsb' 0 6 = f.action := extractLsb'_eq_of_bits v 0 _ fun i hi => by
    rw [low _ (by omega)]
    interval_cases i <;> simp
  simp only [Icount.ofLow, count, action, low, Nat.reduceLT]
  simp

theorem Itrigger.ofLow_eq (f : Itrigger) (v : Word) (low : ∀ i, i < 13 → v.getLsbD i = f.low.getLsbD i) :
    Itrigger.ofLow f.hit v = f := by
  simp only [Itrigger.low, BitVec.getLsbD_append, bit] at low
  have action : v.extractLsb' 0 6 = f.action := extractLsb'_eq_of_bits v 0 _ fun i hi => by
    rw [low _ (by omega)]
    interval_cases i <;> simp
  simp only [Itrigger.ofLow, action, low, Nat.reduceLT]
  simp

theorem Etrigger.ofLow_eq (f : Etrigger) (v : Word) (low : ∀ i, i < 13 → v.getLsbD i = f.low.getLsbD i) :
    Etrigger.ofLow f.hit v = f := by
  simp only [Etrigger.low, BitVec.getLsbD_append, bit] at low
  have action : v.extractLsb' 0 6 = f.action := extractLsb'_eq_of_bits v 0 _ fun i hi => by
    rw [low _ (by omega)]
    interval_cases i <;> simp
  simp only [Etrigger.ofLow, action, low, Nat.reduceLT]
  simp

theorem Tmext.ofLow_eq (f : Tmext) (v : Word) (low : ∀ i, i < 23 → v.getLsbD i = f.low.getLsbD i) :
    Tmext.ofLow f.hit v = f := by
  simp only [Tmext.low, BitVec.getLsbD_append, bit] at low
  have select : v.extractLsb' 6 16 = f.select := extractLsb'_eq_of_bits v 6 _ fun i hi => by
    rw [low _ (by omega)]
    interval_cases i <;> simp
  have action : v.extractLsb' 0 6 = f.action := extractLsb'_eq_of_bits v 0 _ fun i hi => by
    rw [low _ (by omega)]
    interval_cases i <;> simp
  simp only [Tmext.ofLow, select, action, low, Nat.reduceLT]
  simp

/-! ### `type` and `dmode` at the top -/

/-- The top four bits of a 32-bit image are the type, too (spec/10_state.md R29). -/
theorem image32_top (t : Tdata1) : t.image32.extractLsb' 28 4 = BitVec.ofNat 4 t.typ := by
  obtain ⟨dmode, view⟩ := t
  apply BitVec.eq_of_getLsbD_eq
  intro i hi
  cases view <;>
    simp only [Tdata1.image32, Tdata1.typ, View.typ, BitVec.getLsbD_extractLsb', BitVec.getLsbD_append, hi] <;>
    interval_cases i <;> simp

theorem image64_dmode (t : Tdata1) : t.image64.getLsbD 59 = t.dmode := by
  obtain ⟨dmode, view⟩ := t
  cases view <;> simp only [Tdata1.image64, BitVec.getLsbD_append, bit] <;> simp

theorem image32_dmode (t : Tdata1) : t.image32.getLsbD 27 = t.dmode := by
  obtain ⟨dmode, view⟩ := t
  cases view <;> simp only [Tdata1.image32, BitVec.getLsbD_append, bit] <;> simp

theorem View.typ_lt (v : View) : v.typ < 16 := by cases v <;> simp [View.typ]

/-- The number above the lower bits of an image is the type. -/
theorem Tdata1.image_div (x : Xlen) (t : Tdata1) : (t.image x).toNat / 2 ^ (x.bits - 4) = t.typ := by
  have typ : t.typ < 16 := t.view.typ_lt
  cases x with
  | x32 =>
    have top := congrArg BitVec.toNat (image32_top t)
    rw [BitVec.extractLsb'_toNat, BitVec.toNat_ofNat, Nat.shiftRight_eq_div_pow] at top
    have := t.image32.isLt
    simp only [Tdata1.image, Xlen.bits, BitVec.toNat_setWidth]
    omega
  | x64 =>
    have top := congrArg BitVec.toNat (image64_top t)
    rw [BitVec.extractLsb'_toNat, BitVec.toNat_ofNat, Nat.shiftRight_eq_div_pow] at top
    have := t.image64.isLt
    simp only [Tdata1.image, Xlen.bits]
    omega

/-- Settles O4: the type and `dmode` are the first two parts of every layout. -/
theorem typeAndDmodeStandAtTheTop : Obligations.TypeAndDmodeStandAtTheTop := by
  intro x t
  refine ⟨t.image_div x, ?_⟩
  cases x with
  | x32 =>
    have dmode := image32_dmode t
    simpa only [Tdata1.image, Xlen.bits, BitVec.getLsbD_setWidth, Nat.reduceSub, Nat.reduceLT, decide_true, Bool.true_and]
  | x64 => exact image64_dmode t

/-! ### Round trips -/

/-- The low part of a concatenation. -/
theorem getLsbD_append_low {m n : Nat} (high : BitVec m) (low : BitVec n) (i : Nat) (hi : i < n) :
    (high ++ low).getLsbD i = low.getLsbD i := by
  rw [BitVec.getLsbD_append, if_pos hi]

/-- `hit` of types 4, 5 and 7 stands at XLEN-6. -/
theorem image64_hit (d : Bool) :
    (∀ f : Itrigger, (Tdata1.image64 ⟨d, .itrigger f⟩).getLsbD 58 = f.hit) ∧
    (∀ f : Etrigger, (Tdata1.image64 ⟨d, .etrigger f⟩).getLsbD 58 = f.hit) ∧
    ∀ f : Tmext, (Tdata1.image64 ⟨d, .tmext f⟩).getLsbD 58 = f.hit := by
  refine ⟨fun f => ?_, fun f => ?_, fun f => ?_⟩ <;> simp only [Tdata1.image64, BitVec.getLsbD_append, bit] <;> simp

theorem image32_hit (d : Bool) :
    (∀ f : Itrigger, (Tdata1.image32 ⟨d, .itrigger f⟩).getLsbD 26 = f.hit) ∧
    (∀ f : Etrigger, (Tdata1.image32 ⟨d, .etrigger f⟩).getLsbD 26 = f.hit) ∧
    ∀ f : Tmext, (Tdata1.image32 ⟨d, .tmext f⟩).getLsbD 26 = f.hit := by
  refine ⟨fun f => ?_, fun f => ?_, fun f => ?_⟩ <;> simp only [Tdata1.image32, BitVec.getLsbD_append, bit] <;> simp

/-- A 32-bit image in the low half of a word. -/
theorem getLsbD_image32 (t : Tdata1) (i : Nat) (hi : i < 32) : (t.image32.setWidth 64).getLsbD i = t.image32.getLsbD i := by
  have inside : i < 64 := by omega
  simp [inside]

/-- The image of `tdata1` with XLEN = 64 loses no field. -/
theorem Tdata1.ofImage64_image64 (t : Tdata1) : Tdata1.ofImage64 t.image64 = some t := by
  have top := image64_top t
  have dmode := image64_dmode t
  obtain ⟨d, view⟩ := t
  obtain ⟨hit4, hit5, hit7⟩ := image64_hit d
  cases view with
  | mcontrol f =>
    have maskmax : (Tdata1.image64 ⟨d, .mcontrol f⟩).extractLsb' 53 6 = f.maskmax :=
      extractLsb'_eq_of_bits _ 53 _ fun i hi => by
        simp only [Tdata1.image64, BitVec.getLsbD_append]
        interval_cases i <;> simp
    have sizehi : (Tdata1.image64 ⟨d, .mcontrol f⟩).extractLsb' 21 2 = f.size.extractLsb' 2 2 :=
      extractLsb'_eq_of_bits _ 21 _ fun i hi => by
        simp only [Tdata1.image64, BitVec.getLsbD_append]
        interval_cases i <;> simp
    have low : Mcontrol.ofLow f.maskmax (f.size.extractLsb' 2 2) (Tdata1.image64 ⟨d, .mcontrol f⟩) = f :=
      Mcontrol.ofLow_eq f _ _ rfl fun i hi => getLsbD_append_low _ _ i hi
    simp only [Tdata1.ofImage64, top, dmode, maskmax, sizehi, low, Tdata1.typ, View.typ]
    rfl
  | mcontrol6 f =>
    have low : Mcontrol6.ofLow (Tdata1.image64 ⟨d, .mcontrol6 f⟩) = f :=
      Mcontrol6.ofLow_eq f _ fun i hi => getLsbD_append_low _ _ i hi
    simp only [Tdata1.ofImage64, top, dmode, low, Tdata1.typ, View.typ]
    rfl
  | icount f =>
    have low : Icount.ofLow (Tdata1.image64 ⟨d, .icount f⟩) = f :=
      Icount.ofLow_eq f _ fun i hi => getLsbD_append_low _ _ i hi
    simp only [Tdata1.ofImage64, top, dmode, low, Tdata1.typ, View.typ]
    rfl
  | itrigger f =>
    have low : Itrigger.ofLow f.hit (Tdata1.image64 ⟨d, .itrigger f⟩) = f :=
      Itrigger.ofLow_eq f _ fun i hi => getLsbD_append_low _ _ i hi
    simp only [Tdata1.ofImage64, top, dmode, hit4, low, Tdata1.typ, View.typ]
    rfl
  | etrigger f =>
    have low : Etrigger.ofLow f.hit (Tdata1.image64 ⟨d, .etrigger f⟩) = f :=
      Etrigger.ofLow_eq f _ fun i hi => getLsbD_append_low _ _ i hi
    simp only [Tdata1.ofImage64, top, dmode, hit5, low, Tdata1.typ, View.typ]
    rfl
  | tmext f =>
    have low : Tmext.ofLow f.hit (Tdata1.image64 ⟨d, .tmext f⟩) = f :=
      Tmext.ofLow_eq f _ fun i hi => getLsbD_append_low _ _ i hi
    simp only [Tdata1.ofImage64, top, dmode, hit7, low, Tdata1.typ, View.typ]
    rfl
  | disabled data =>
    have kept : (Tdata1.image64 ⟨d, .disabled data⟩).extractLsb' 0 59 = data := extractLsb'_eq_of_bits _ 0 _ fun i hi => by
      simp only [Tdata1.image64, BitVec.getLsbD_append, Nat.zero_add, hi, if_true]
    simp only [Tdata1.ofImage64, top, dmode, kept, Tdata1.typ, View.typ]
    rfl

theorem setWidth_extractLsb'_of_lt (data : BitVec 59) (small : data.toNat < 2 ^ 27) :
    (data.extractLsb' 0 27).setWidth 59 = data := by
  apply BitVec.eq_of_toNat_eq
  rw [BitVec.toNat_setWidth, BitVec.extractLsb'_toNat, Nat.shiftRight_zero, Nat.mod_eq_of_lt small, Nat.mod_eq_of_lt data.isLt]

/-- The image of `tdata1` with XLEN = 32 loses no field but `sizehi` and the upper part of the ignored bits. -/
theorem Tdata1.ofImage32_image32 (t : Tdata1) (size : ∀ f : Mcontrol, t.view = .mcontrol f → f.size.toNat < 4)
    (kept : ∀ d : BitVec 59, t.view = .disabled d → d.toNat < 2 ^ 27) :
    Tdata1.ofImage32 (t.image32.setWidth 64) = some t := by
  have top : (t.image32.setWidth 64).extractLsb' 28 4 = BitVec.ofNat 4 t.typ := by
    rw [← image32_top t]
    refine extractLsb'_eq_of_bits _ 28 _ fun i hi => ?_
    rw [getLsbD_image32 _ _ (by omega), BitVec.getLsbD_extractLsb']
    simp [hi]
  have dmode : (t.image32.setWidth 64).getLsbD 27 = t.dmode := (getLsbD_image32 t 27 (by decide)).trans (image32_dmode t)
  obtain ⟨d, view⟩ := t
  obtain ⟨hit4, hit5, hit7⟩ := image32_hit d
  cases view with
  | mcontrol f =>
    have maskmax : ((Tdata1.image32 ⟨d, .mcontrol f⟩).setWidth 64).extractLsb' 21 6 = f.maskmax :=
      extractLsb'_eq_of_bits _ 21 _ fun i hi => by
        rw [getLsbD_image32 _ _ (by omega)]
        simp only [Tdata1.image32, BitVec.getLsbD_append]
        interval_cases i <;> simp
    have sizehi : 0 = f.size.extractLsb' 2 2 := by
      have small := size f rfl
      apply BitVec.eq_of_toNat_eq
      rw [BitVec.extractLsb'_toNat, Nat.shiftRight_eq_div_pow, Nat.div_eq_of_lt small]
      rfl
    have low : Mcontrol.ofLow f.maskmax 0 ((Tdata1.image32 ⟨d, .mcontrol f⟩).setWidth 64) = f :=
      Mcontrol.ofLow_eq f _ _ sizehi fun i hi =>
        (getLsbD_image32 _ i (by omega)).trans (getLsbD_append_low _ _ i hi)
    simp only [Tdata1.ofImage32, top, dmode, maskmax, low, Tdata1.typ, View.typ]
    rfl
  | mcontrol6 f =>
    have low : Mcontrol6.ofLow ((Tdata1.image32 ⟨d, .mcontrol6 f⟩).setWidth 64) = f :=
      Mcontrol6.ofLow_eq f _ fun i hi =>
        (getLsbD_image32 _ i (by omega)).trans (getLsbD_append_low _ _ i hi)
    simp only [Tdata1.ofImage32, top, dmode, low, Tdata1.typ, View.typ]
    rfl
  | icount f =>
    have low : Icount.ofLow ((Tdata1.image32 ⟨d, .icount f⟩).setWidth 64) = f :=
      Icount.ofLow_eq f _ fun i hi =>
        (getLsbD_image32 _ i (by omega)).trans (getLsbD_append_low _ _ i hi)
    simp only [Tdata1.ofImage32, top, dmode, low, Tdata1.typ, View.typ]
    rfl
  | itrigger f =>
    have hit := (getLsbD_image32 _ 26 (by decide)).trans (hit4 f)
    have low : Itrigger.ofLow f.hit ((Tdata1.image32 ⟨d, .itrigger f⟩).setWidth 64) = f :=
      Itrigger.ofLow_eq f _ fun i hi =>
        (getLsbD_image32 _ i (by omega)).trans (getLsbD_append_low _ _ i hi)
    simp only [Tdata1.ofImage32, top, dmode, hit, low, Tdata1.typ, View.typ]
    rfl
  | etrigger f =>
    have hit := (getLsbD_image32 _ 26 (by decide)).trans (hit5 f)
    have low : Etrigger.ofLow f.hit ((Tdata1.image32 ⟨d, .etrigger f⟩).setWidth 64) = f :=
      Etrigger.ofLow_eq f _ fun i hi =>
        (getLsbD_image32 _ i (by omega)).trans (getLsbD_append_low _ _ i hi)
    simp only [Tdata1.ofImage32, top, dmode, hit, low, Tdata1.typ, View.typ]
    rfl
  | tmext f =>
    have hit := (getLsbD_image32 _ 26 (by decide)).trans (hit7 f)
    have low : Tmext.ofLow f.hit ((Tdata1.image32 ⟨d, .tmext f⟩).setWidth 64) = f :=
      Tmext.ofLow_eq f _ fun i hi =>
        (getLsbD_image32 _ i (by omega)).trans (getLsbD_append_low _ _ i hi)
    simp only [Tdata1.ofImage32, top, dmode, hit, low, Tdata1.typ, View.typ]
    rfl
  | disabled data =>
    have low : ((Tdata1.image32 ⟨d, .disabled data⟩).setWidth 64).extractLsb' 0 27 = data.extractLsb' 0 27 :=
      extractLsb'_eq_of_bits _ 0 _ fun i hi => by
        rw [getLsbD_image32 _ _ (by omega)]
        simp only [Tdata1.image32, BitVec.getLsbD_append, Nat.zero_add, hi, if_true]
    have whole := setWidth_extractLsb'_of_lt data (kept data rfl)
    simp only [Tdata1.ofImage32, top, dmode, low, whole, Tdata1.typ, View.typ]
    rfl

/-! ### `tdata3` -/

theorem Textra.image64_toNat (e : Textra) : e.image64.toNat = e.mhvalue.toNat * 2 ^ 51 + e.mhselect.toNat * 2 ^ 48 +
    e.sbytemask.toNat * 2 ^ 36 + e.svalue.toNat * 2 ^ 2 + e.sselect.toNat := by
  simp only [Textra.image64, BitVec.toNat_append]
  rw [← Nat.shiftLeft_add_eq_or_of_lt e.sselect.isLt, ← Nat.shiftLeft_add_eq_or_of_lt e.svalue.isLt,
    ← Nat.shiftLeft_add_eq_or_of_lt (0#2).isLt, ← Nat.shiftLeft_add_eq_or_of_lt e.sbytemask.isLt,
    ← Nat.shiftLeft_add_eq_or_of_lt (0#8).isLt, ← Nat.shiftLeft_add_eq_or_of_lt e.mhselect.isLt]
  simp only [Nat.shiftLeft_eq, BitVec.toNat_ofNat]
  omega

theorem Textra.image32_toNat (e : Textra) : e.image32.toNat = (e.mhvalue.toNat % 2 ^ 6) * 2 ^ 26 + e.mhselect.toNat * 2 ^ 23 +
    (e.sbytemask.toNat % 2 ^ 2) * 2 ^ 18 + (e.svalue.toNat % 2 ^ 16) * 2 ^ 2 + e.sselect.toNat := by
  simp only [Textra.image32, BitVec.toNat_append]
  rw [← Nat.shiftLeft_add_eq_or_of_lt e.sselect.isLt, ← Nat.shiftLeft_add_eq_or_of_lt (e.svalue.extractLsb' 0 16).isLt,
    ← Nat.shiftLeft_add_eq_or_of_lt (e.sbytemask.extractLsb' 0 2).isLt, ← Nat.shiftLeft_add_eq_or_of_lt (0#3).isLt,
    ← Nat.shiftLeft_add_eq_or_of_lt e.mhselect.isLt]
  simp only [Nat.shiftLeft_eq, BitVec.toNat_ofNat, BitVec.extractLsb'_toNat, Nat.shiftRight_zero]
  omega

/-- The numbers that a 32-bit image asks for (R186). -/
theorem Textra.ofImage32_toNat (v : Word) :
    (Textra.ofImage32 v).mhvalue.toNat = v.toNat / 2 ^ 26 % 2 ^ 6 ∧
    (Textra.ofImage32 v).mhselect.toNat = v.toNat / 2 ^ 23 % 2 ^ 3 ∧
    (Textra.ofImage32 v).sbytemask.toNat = v.toNat / 2 ^ 18 % 2 ^ 2 ∧
    (Textra.ofImage32 v).svalue.toNat = v.toNat / 2 ^ 2 % 2 ^ 16 ∧ (Textra.ofImage32 v).sselect.toNat = v.toNat % 2 ^ 2 := by
  simp only [Textra.ofImage32, BitVec.toNat_setWidth, BitVec.extractLsb'_toNat, Nat.shiftRight_eq_div_pow]
  refine ⟨?_, trivial, ?_, ?_, ?_⟩ <;> omega

theorem Textra.ofImage64_toNat (v : Word) :
    (Textra.ofImage64 v).mhvalue.toNat = v.toNat / 2 ^ 51 % 2 ^ 13 ∧
    (Textra.ofImage64 v).mhselect.toNat = v.toNat / 2 ^ 48 % 2 ^ 3 ∧
    (Textra.ofImage64 v).sbytemask.toNat = v.toNat / 2 ^ 36 % 2 ^ 4 ∧
    (Textra.ofImage64 v).svalue.toNat = v.toNat / 2 ^ 2 % 2 ^ 32 ∧ (Textra.ofImage64 v).sselect.toNat = v.toNat % 2 ^ 2 := by
  simp only [Textra.ofImage64, BitVec.extractLsb'_toNat, Nat.shiftRight_eq_div_pow]
  exact ⟨trivial, trivial, trivial, trivial, by rw [pow_zero, Nat.div_one]⟩

/-- Two values of `tdata3` whose fields are the same numbers. -/
theorem Textra.eq_of_toNat_eq (a b : Textra) (mhvalue : a.mhvalue.toNat = b.mhvalue.toNat)
    (mhselect : a.mhselect.toNat = b.mhselect.toNat) (sbytemask : a.sbytemask.toNat = b.sbytemask.toNat)
    (svalue : a.svalue.toNat = b.svalue.toNat) (sselect : a.sselect.toNat = b.sselect.toNat) : a = b := by
  cases a
  cases b
  simp only [Textra.mk.injEq]
  exact ⟨BitVec.eq_of_toNat_eq mhvalue, BitVec.eq_of_toNat_eq mhselect, BitVec.eq_of_toNat_eq sbytemask,
    BitVec.eq_of_toNat_eq svalue, BitVec.eq_of_toNat_eq sselect⟩

theorem Textra.ofImage64_image64 (e : Textra) : Textra.ofImage64 e.image64 = e := by
  obtain ⟨mhvalue, mhselect, sbytemask, svalue, sselect⟩ := Textra.ofImage64_toNat e.image64
  rw [e.image64_toNat] at mhvalue mhselect sbytemask svalue sselect
  have := e.mhvalue.isLt; have := e.mhselect.isLt; have := e.sbytemask.isLt; have := e.svalue.isLt; have := e.sselect.isLt
  apply Textra.eq_of_toNat_eq <;> omega

theorem Textra.ofImage32_image32 (e : Textra) (mhv : e.mhvalue.toNat < 2 ^ 6) (sbm : e.sbytemask.toNat < 2 ^ 2)
    (sv : e.svalue.toNat < 2 ^ 16) : Textra.ofImage32 (e.image32.setWidth 64) = e := by
  have word : (e.image32.setWidth 64).toNat = e.image32.toNat := by
    have := e.image32.isLt
    rw [BitVec.toNat_setWidth]
    omega
  obtain ⟨mhvalue, mhselect, sbytemask, svalue, sselect⟩ := Textra.ofImage32_toNat (e.image32.setWidth 64)
  rw [word, e.image32_toNat] at mhvalue mhselect sbytemask svalue sselect
  have := e.mhselect.isLt; have := e.sselect.isLt
  apply Textra.eq_of_toNat_eq <;> omega

/-- Settles O3: every field is read back from the bits it was laid out in. -/
theorem registerImagesRoundTrip : Obligations.RegisterImagesRoundTrip :=
  ⟨Tdata1.ofImage64_image64, Tdata1.ofImage32_image32, Textra.ofImage64_image64, Textra.ofImage32_image32⟩

end Sys2Proof.Machine
end

section
/-! The CSR instructions (spec/40_csr_access.md sections 1 and 6): which accesses are refused and with which code, what a refused
access leaves, and the one account of an allowed access that the six instructions' completion statements read off. -/

namespace Sys2Proof.Machine

/-! ### Permission -/

/-- Settles O5: M-mode and Debug Mode by their permission, the lower modes by the only registers that they can be allowed. -/
theorem accessTable : Obligations.AccessTable := by
  intro s c present
  have reach : s.mode.isMachine = false → s.permission c = .allowed →
      c.isContext = true ∧ s.mode.isUser = false ∧ (s.mode ≠ .s → c = .scontext) := s.permission_below_machine c
  refine ⟨s.permission_of_isMachine c present, fun mode => ⟨fun context absent => ?_, fun other allowed => ?_⟩,
    fun mode => ⟨fun scontext absent => ?_, fun other allowed => ?_⟩, fun user allowed => ?_⟩
  · rw [State.permission, if_pos present, State.permissionByMode, mode]
    cases c with
    | scontext | mscontext | hcontext => simp only [State.permissionS, absent, Bool.false_and, Bool.false_eq_true, if_false]
    | tselect | tdata1 | tdata2 | tdata3 | tinfo | tcontrol | mcontext => cases context
  · obtain ⟨context, -, -⟩ := reach (by rw [mode]; rfl) allowed
    exact Bool.false_ne_true (other.symm.trans context)
  · rw [State.permission, if_pos present, State.permissionByMode, mode, scontext]
    simp only [State.permissionVs, absent, Bool.false_and, Bool.false_eq_true, if_false]
  · obtain ⟨-, -, only⟩ := reach (by rw [mode]; rfl) allowed
    exact other (only (by rw [mode]; decide))
  · have below : s.mode.isMachine = false := by
      cases mode : s.mode with
      | u | vu | s | vs => rfl
      | m | debug => rw [mode] at user; cases user
    obtain ⟨-, notUser, -⟩ := reach below allowed
    exact Bool.false_ne_true (notUser.symm.trans user)

/-- Settles O6: with Smstateen the two bits alone decide. -/
theorem stateEnableGatesContexts : Obligations.StateEnableGatesContexts := by
  intro s c present context smstateen
  refine ⟨fun mode => ?_, fun mode scontext => ?_⟩
  · rw [State.permission, if_pos present, State.permissionByMode, mode]
    cases c with
    | scontext | mscontext | hcontext =>
      simp only [State.permissionS, smstateen, Bool.true_and]
      cases s.host.mstateen57 <;> rfl
    | tselect | tdata1 | tdata2 | tdata3 | tinfo | tcontrol | mcontext => cases context
  · rw [State.permission, if_pos present, State.permissionByMode, mode, scontext]
    simp only [State.permissionVs, smstateen, Bool.true_and]
    cases s.host.mstateen57 <;> cases s.host.hstateen57 <;> rfl

theorem State.permissionS_cases (s : State) (c : TmCsr) : s.permissionS c = .allowed ∨ s.permissionS c = .refused 2 := by
  cases c with
  | scontext | mscontext | hcontext =>
    simp only [State.permissionS]
    split
    · exact .inr rfl
    · exact .inl rfl
  | tselect | tdata1 | tdata2 | tdata3 | tinfo | tcontrol | mcontext => exact .inr rfl

theorem State.refusedV_cases (s : State) (c : TmCsr) : s.refusedV c = .refused 2 ∨ s.refusedV c = .refused 22 := by
  unfold State.refusedV
  split
  · exact .inr rfl
  · exact .inl rfl

theorem State.permissionVs_cases (s : State) (c : TmCsr) :
    s.permissionVs c = .allowed ∨ s.permissionVs c = .refused 2 ∨ s.permissionVs c = .refused 22 := by
  cases c with
  | scontext =>
    simp only [State.permissionVs]
    split
    · exact .inr (.inl rfl)
    · split
      · exact .inr (.inr rfl)
      · exact .inl rfl
  | mscontext | hcontext => exact .inr (s.refusedV_cases _)
  | tselect | tdata1 | tdata2 | tdata3 | tinfo | tcontrol | mcontext => exact .inr (.inl rfl)

/-- The three answers to an access (R271 to R275). -/
theorem State.permission_cases (s : State) (c : TmCsr) :
    s.permission c = .allowed ∨ s.permission c = .refused 2 ∨ s.permission c = .refused 22 := by
  unfold State.permission
  split
  · unfold State.permissionByMode
    split
    · exact .inl rfl
    · exact .inl rfl
    · exact (s.permissionS_cases c).imp_right .inl
    · exact s.permissionVs_cases c
    · exact .inr (.inl rfl)
    · exact .inr (s.refusedV_cases c)
  · exact .inr (.inl rfl)

theorem State.code_of_refused (s : State) (c : TmCsr) (code : Nat) (refused : s.permission c = .refused code) :
    code = 2 ∨ code = 22 := by
  rcases s.permission_cases c with answer | answer | answer <;> rw [answer] at refused <;> cases refused
  · exact .inl rfl
  · exact .inr rfl

/-! ### A refused access -/

/-- What counting leaves, a trap leaves. -/
theorem Trigger.sameButCount.sameButTrapBits {t u : Trigger} (same : t.sameButCount u) : t.sameButTrapBits u := by
  obtain ⟨impl, tdata2, tdata3, sext, held, dmode, others, counted⟩ := same
  refine ⟨impl, tdata2, tdata3, sext, held, dmode, ?_⟩
  have kept : t.tdata1.typ ≠ 3 → u.tdata1.view = t.tdata1.view := fun typ => by rw [others typ]
  rw [Tdata1.typ] at kept
  cases view : t.tdata1.view with
  | icount f => exact counted f view
  | itrigger f => exact ⟨f.hit, (kept (by rw [view]; simp [View.typ])).trans view⟩
  | etrigger f => exact ⟨f.hit, (kept (by rw [view]; simp [View.typ])).trans view⟩
  | mcontrol | mcontrol6 | tmext | disabled => exact (kept (by rw [view]; simp [View.typ])).trans view

/-- A trigger that matches a trap is of type 4 or 5 (R491, R497). -/
theorem State.view_of_trapMatches (s : State) (mFrom : Mode) (interrupt nmi : Bool) (code i : Nat) (t : Trigger)
    (matched : s.trapMatches mFrom interrupt nmi code i t = true) :
    (∃ f, t.tdata1.view = .itrigger f) ∨ ∃ f, t.tdata1.view = .etrigger f := by
  simp only [State.trapMatches, Bool.and_eq_true] at matched
  obtain ⟨⟨⟨⟨condition, -⟩, -⟩, -⟩, -⟩ := matched
  unfold State.trapCondition at condition
  split at condition
  · next f view => exact .inl ⟨f, view⟩
  · next f view => exact .inr ⟨f, view⟩
  all_goals cases condition

/-- A trigger that has counted and then matched a trap. -/
theorem Trigger.sameButTrapBits_hitByTrap {t u : Trigger} (same : t.sameButCount u)
    (view : (∃ f, u.tdata1.view = .itrigger f) ∨ ∃ f, u.tdata1.view = .etrigger f) : t.sameButTrapBits u.hitByTrap := by
  obtain ⟨impl, tdata2, tdata3, sext, held, dmode, others, counted⟩ := same
  refine ⟨impl, tdata2, tdata3, sext, held, dmode, ?_⟩
  have notIcount : t.tdata1.typ ≠ 3 := by
    rw [Tdata1.typ]
    intro typ
    cases viewT : t.tdata1.view with
    | icount f =>
      obtain ⟨c, b, viewU⟩ := counted f viewT
      rcases view with ⟨g, view⟩ | ⟨g, view⟩ <;> rw [viewU] at view <;> cases view
    | itrigger | etrigger | mcontrol | mcontrol6 | tmext | disabled => rw [viewT] at typ; simp [View.typ] at typ
  rw [← others notIcount]
  rcases view with ⟨f, view⟩ | ⟨f, view⟩ <;> simp only [Trigger.hitByTrap, view, View.fired]
  · exact ⟨_, rfl⟩
  · exact ⟨_, rfl⟩

/-- What a trap does to the triggers (R571 leaves them alone; R471 and R501 count and hit). -/
theorem State.sameButTrapBits_takeTrap (s : State) (h : Handler) (b n : Bool) (code : Nat) (v : Word) :
    List.Forall₂ Trigger.sameButTrapBits s.trigs (s.takeTrap h b n code v).trigs := by
  have counted : List.Forall₂ Trigger.sameButCount s.trigs (s.countTrap (s.afterHostTrap h b code v)).trigs := by
    rw [State.countTrap_eq, State.setTrigs_trigs, State.afterHostTrap_trigs]
    exact State.sameButCount_countedTrigs s _ s.trigs s.mode none
  rw [State.takeTrap_trigs, List.forall₂_iff_get]
  obtain ⟨length, each⟩ := List.forall₂_iff_get.mp counted
  refine ⟨by rw [List.length_mapIdx, length], fun i inS inT => ?_⟩
  have same := each i inS (length ▸ inS)
  simp only [List.get_eq_getElem, List.getElem_mapIdx] at same ⊢
  split
  · next matched => exact Trigger.sameButTrapBits_hitByTrap same (State.view_of_trapMatches _ _ _ _ _ _ _ matched)
  · exact same.sameButTrapBits

theorem Trigger.sameButTrapBits_refl (t : Trigger) : t.sameButTrapBits t := t.sameButCount_refl.sameButTrapBits

/-- Outside Debug Mode a refused access is a trap (log entry 7). -/
theorem State.csrRefused_eq_takeTrap (s : State) (code : Nat) (outside : s.mode ≠ .debug) :
    s.csrRefused code = (s.emit [refusalSignal code]).takeTrap (s.trapTarget code) false false code
      (s.freeTval (s.trapTarget code)) :=
  State.raise_eq (s.emit [refusalSignal code]) code _ outside

/-- In Debug Mode it ends the instruction. -/
theorem State.csrRefused_eq_abandon (s : State) (code : Nat) (debug : s.mode = .debug) :
    s.csrRefused code = (s.emit [refusalSignal code]).abandon.tick := if_pos debug

theorem State.sameButTrapBits_csrRefused (s : State) (code : Nat) :
    List.Forall₂ Trigger.sameButTrapBits s.trigs (s.csrRefused code).trigs := by
  by_cases debug : s.mode = .debug
  · rw [s.csrRefused_eq_abandon code debug, State.tick_trigs, State.abandon_trigs, State.emit_trigs]
    exact List.forall₂_same.mpr fun t _ => t.sameButTrapBits_refl
  · rw [s.csrRefused_eq_takeTrap code debug, ← s.emit_trigs [refusalSignal code]]
    exact State.sameButTrapBits_takeTrap _ _ _ _ _ _

theorem State.csrRefused_trap (s : State) (code : Nat) (outside : s.mode ≠ .debug) :
    (s.csrRefused code).mode = (s.trapTarget code).mode ∧
    ((s.csrRefused code).mte, (s.csrRefused code).mpte) =
      (if s.trapTarget code = .m ∧ s.cfg.hasTcontrol = true then (false, s.mte) else (s.mte, s.mpte)) ∧
    ∃ v, (s.csrRefused code).trapRegs (s.trapTarget code) = ⟨s.pc, false, code, v⟩ := by
  rw [s.csrRefused_eq_takeTrap code outside]
  refine ⟨State.takeTrap_mode _ _ _ _ _ _, ?_, s.freeTval (s.trapTarget code), ?_⟩
  · obtain ⟨mte, mpte⟩ := (s.emit [refusalSignal code]).takeTrap_tcontrol (s.trapTarget code) false false code
      (s.freeTval (s.trapTarget code))
    rw [mte, mpte, State.emit_cfg, State.emit_mte, State.emit_mpte]
    split <;> rfl
  · rw [State.takeTrap_trapRegs, if_pos rfl, State.emit_pc]

/-- Settles O8: the exception is raised with the signal handed out, and raising it is a trap outside Debug Mode and nothing in
it. -/
theorem refusedAccessWritesNothing : Obligations.RefusedAccessWritesNothing := by
  intro i s c code name refused
  obtain ⟨op, opCsr, run⟩ := exec_next i s
  have permission : s.csrPermission op.csr = .refused code := by rw [State.csrPermission, opCsr, name]; exact refused
  rw [s.csrInstr_refused op code permission] at run
  refine ⟨s.code_of_refused c code refused, _, run, ?_, ?_, ?_, ?_, ?_, ?_, ?_, s.sameButTrapBits_csrRefused code,
    fun outside => s.csrRefused_trap code outside, fun debug => ?_⟩
  · rw [State.endItem_x, State.csrRefused_x]
  · rw [State.endItem_tselect, State.csrRefused, State.raise_tselect, State.emit_tselect]
  · rw [State.endItem_scontext, State.csrRefused, State.raise_scontext, State.emit_scontext]
  · rw [State.endItem_mcontext, State.csrRefused, State.raise_mcontext, State.emit_mcontext]
  · rw [State.endItem_dpc, State.csrRefused, State.raise_dpc, State.emit_dpc]
  · rw [State.endItem_feed, State.csrRefused, State.raise_feed, State.emit_feed]
  · rw [State.endItem_outbox, State.csrRefused, State.raise_outbox, State.emit_outbox]
    rfl
  · rw [s.csrRefused_eq_abandon code debug]
    simp [debug]

/-- Settles O7: the access is refused with code 2, and a refused access is O8's. -/
theorem missingRegisterRaisesIllegalInstruction : Obligations.MissingRegisterRaisesIllegalInstruction := by
  intro i s c name missing
  have refused : s.permission c = .refused 2 := by rw [State.permission, missing]; rfl
  obtain ⟨-, t, run, x, -, -, -, -, -, outbox, -, trap, -⟩ := refusedAccessWritesNothing i s c 2 name refused
  refine ⟨?_, ?_, t, run, outbox, x, fun outside => ?_⟩
  · rintro rfl
    cases missing
  · rintro rfl
    cases missing
  · obtain ⟨mode, -, v, regs⟩ := trap outside
    exact ⟨v, regs, mode⟩

/-! ### An allowed access -/

/-- An instruction as an operation: what it writes, if it writes, is what it asks for. -/
theorem exec_asked (i : Instr) (s : State) : ∃ op : CsrOp, op.csr = i.csr ∧ op.rd = i.rd ∧
    (∀ old, s.asked i old = if op.writes then some (op.value old) else none) ∧ exec i s = .next (s.csrInstr op) := by
  cases i with
  | csrrw | csrrwi => exact ⟨_, rfl, rfl, fun old => rfl, rfl⟩
  | csrrs rd a r | csrrc rd a r | csrrsi rd a r | csrrci rd a r =>
    refine ⟨_, rfl, rfl, fun old => ?_, rfl⟩
    simp [State.asked, uimmValue]

/-- One register is written, and register 0 is not. -/
theorem State.writeReg_writesOnly (s w : State) (rd : Reg) (v : Word) (x : w.x = s.x) (short : w.xlen.trunc v = v) :
    s.writesOnly (w.writeReg rd v) rd v := by
  by_cases zero : rd = 0
  · rw [State.writeReg, if_pos zero]
    exact ⟨fun notZero => absurd zero notZero, fun r _ => by simp only [x]⟩
  · rw [State.writeReg, if_neg zero]
    refine ⟨fun _ => by simp [short], fun r other => ?_⟩
    by_cases same : r = rd
    · rcases other with other | isZero
      · exact absurd same other
      · exact absurd (same.symm.trans isZero) zero
    · have apart : rd.toNat ≠ r.toNat := fun e => same (BitVec.eq_of_toNat_eq e.symm)
      simp [x, apart]

/-- An allowed CSR instruction is done: `rd` holds what it read, and the Trigger Module what its write part left. -/
theorem State.csrDone_csrInstr (s : State) (op : CsrOp) (allowed : s.csrPermission op.csr = .allowed) :
    s.csrDone (s.csrInstr op) op.rd (s.csrValue op.csr) (s.csrWritten op) := by
  have idle := s.atBoundary_csrInstr op
  rw [s.csrInstr_allowed op allowed] at idle ⊢
  have xlen : (s.csrWritten op).1.xlen = s.xlen := by simp [State.csrWritten, State.xlen, State.xlenIn]
  have reg : s.writesOnly ((s.csrWritten op).1.writeReg op.rd (s.csrValue op.csr)) op.rd (s.csrValue op.csr) :=
    s.writeReg_writesOnly _ _ _ (by simp [State.csrWritten]) (by rw [xlen, s.csrValue_trunc])
  have effect : (s.csrEffect op).1 = ((s.csrWritten op).1.writeReg op.rd (s.csrValue op.csr)).setPc (s.nextPc 4) := rfl
  have named : (s.csrEffect op).2 = (s.csrWritten op).2 := rfl
  rw [effect, named] at idle ⊢
  refine ⟨?_, ?_, ?_, ?_, ?_, ?_, ?_, idle⟩
  · simp only [State.endItem_pc, State.retire_pc, State.setPc_pc, State.nextPc]
    rfl
  · exact reg
  · simp [State.sameShared]
  · simp
  · simp [State.sameHart, State.csrWritten]
  · simp [State.csrWritten]
  · simp [State.csrWritten]

/-- Every instruction on a register of the Trigger Module that its mode may access (R301 to R307). -/
theorem State.exec_csrDone (s : State) (i : Instr) (c : TmCsr) (name : tmCsr i.csr = some c)
    (allowed : s.permission c = .allowed) : ∃ t, exec i s = .next t ∧ s.csrDone t i.rd (s.readCsr c)
      (match s.asked i (s.readCsr c) with
       | some v => s.writeCsr c v
       | none => (s, none)) := by
  obtain ⟨op, opCsr, opRd, asked, run⟩ := exec_asked i s
  have name' : tmCsr op.csr = some c := by rw [opCsr, name]
  have value : s.csrValue op.csr = s.readCsr c := by simp only [State.csrValue, name']
  have written : s.csrWritten op = (match s.asked i (s.readCsr c) with
       | some v => s.writeCsr c v
       | none => (s, none)) := by
    rw [asked, State.csrWritten, State.csrStore, value, name']
    cases op.writes <;> rfl
  have done := s.csrDone_csrInstr op (by rw [State.csrPermission, name']; exact allowed)
  rw [value, opRd, written] at done
  exact ⟨_, run, done⟩

/-- Settles O9: the access is allowed. -/
theorem machineAccessSucceeds : Obligations.MachineAccessSucceeds := fun i s c name present machine =>
  s.exec_csrDone i c name (s.permission_of_isMachine c present machine)

/-- Settles O10: the value asked for is that of `rs1`. -/
theorem csrrwCompletes : Obligations.CsrrwCompletes := fun rd rs1 a s c name allowed =>
  s.exec_csrDone (.csrrw rd a rs1) c name allowed

/-- Settles O13: the value asked for is the immediate. -/
theorem csrrwiCompletes : Obligations.CsrrwiCompletes := fun rd a uimm s c name allowed =>
  s.exec_csrDone (.csrrwi rd a uimm) c name allowed

/-- What an instruction leaves that asks for a write unless its operand is 0. -/
theorem State.written_of_if (s : State) (c : TmCsr) (p : Prop) [Decidable p] (v : Word) :
    (match (if p then none else some v : Option Word) with
     | some v => s.writeCsr c v
     | none => (s, none)) = if p then (s, none) else s.writeCsr c v := by
  by_cases h : p
  · simp only [if_pos h]
  · simp only [if_neg h]

/-- Settles O11: the value asked for has the bits of `rs1` set. -/
theorem csrrsCompletes : Obligations.CsrrsCompletes := fun rd rs1 a s c name allowed =>
  s.written_of_if c (rs1 = 0) _ ▸ s.exec_csrDone (.csrrs rd a rs1) c name allowed

/-- Settles O12: the value asked for has the bits of `rs1` clear. -/
theorem csrrcCompletes : Obligations.CsrrcCompletes := fun rd rs1 a s c name allowed =>
  s.written_of_if c (rs1 = 0) _ ▸ s.exec_csrDone (.csrrc rd a rs1) c name allowed

/-- Settles O14: the value asked for has the bits of the immediate set. -/
theorem csrrsiCompletes : Obligations.CsrrsiCompletes := fun rd a uimm s c name allowed =>
  s.written_of_if c (uimm = 0) _ ▸ s.exec_csrDone (.csrrsi rd a uimm) c name allowed

/-- Settles O15: the value asked for has the bits of the immediate clear. -/
theorem csrrciCompletes : Obligations.CsrrciCompletes := fun rd a uimm s c name allowed =>
  s.written_of_if c (uimm = 0) _ ▸ s.exec_csrDone (.csrrci rd a uimm) c name allowed

/-- Settles O16: a CSR of the hart's is allowed, reads a free value of the XLEN, and no register of the Trigger Module is
written. -/
theorem hostCsrInstructionCompletes : Obligations.HostCsrInstructionCompletes := by
  intro i s foreign
  obtain ⟨op, opCsr, opRd, -, run⟩ := exec_asked i s
  have name : tmCsr op.csr = none := by rw [opCsr, foreign]
  have written : s.csrWritten op = (s, none) := by
    rw [State.csrWritten, State.csrStore, name]
    cases op.writes <;> rfl
  have done := s.csrDone_csrInstr op (by rw [State.csrPermission, name])
  rw [opRd, written] at done
  exact ⟨_, _, run, s.csrValue_trunc op.csr, done⟩

/-- Settles O17: trigger by trigger. -/
theorem countingChangesCountsOnly : Obligations.CountingChangesCountsOnly :=
  State.sameButCount_countedTrigs

end Sys2Proof.Machine
end

section
/-! When nothing matches and nothing fires: Debug Mode, a disabled trigger, and a machine with no trigger armed
(spec/41_trigger_common.md R320, R321; spec/40_csr_access.md R286). -/

namespace Sys2Proof.Machine

/-! ### Enables -/

theorem View.enabledIn_debug (v : View) : v.enabledIn .debug = false := by cases v <;> rfl

/-- Only type 7 has no mode enable to clear (R323). -/
theorem View.enabledIn_of_enablesClear (v : View) (clear : v.enablesClear = true) (typ : v.typ ≠ 7) (md : Mode) :
    v.enabledIn md = false := by
  cases v with
  | tmext f => exact absurd rfl typ
  | disabled data => cases md <;> rfl
  | mcontrol | icount | itrigger | etrigger | mcontrol6 =>
    simp only [View.enablesClear, Bool.not_eq_true', Bool.or_eq_false_iff] at clear
    cases md <;> simp only [View.enabledIn, clear]

theorem State.ownVerdict_of_not_enabled (s : State) (i : Nat) (t : Trigger) (e : Event) (r : Rank)
    (off : t.tdata1.enabledIn s.mode = false) : s.ownVerdict i t e r = .no := by
  unfold State.ownVerdict
  split
  · rfl
  · rw [off, Bool.and_false, Bool.false_and, Bool.false_and, Bool.false_and]
    rfl

theorem State.trapMatches_of_not_enabled (s : State) (md : Mode) (interrupt nmi : Bool) (code i : Nat) (t : Trigger)
    (off : t.tdata1.enabledIn md = false) : s.trapMatches md interrupt nmi code i t = false := by
  rw [State.trapMatches, off, Bool.and_false, Bool.false_and, Bool.false_and, Bool.false_and]

theorem State.countMatches_of_not_enabled (was s : State) (md : Mode) (i : Nat) (t : Trigger)
    (off : t.tdata1.enabledIn md = false) : State.countMatches was s md i t = false := by
  rw [State.countMatches, off, Bool.and_false, Bool.false_and, Bool.false_and, Bool.false_and]

theorem State.mayFire_debug (s : State) (t : Tdata1) (debug : s.mode = .debug) : s.mayFire t = false := by
  rw [State.mayFire, debug]
  rfl

/-! ### The fires of a boundary -/

/-- The members of the lists that the model builds index by index. -/
theorem mem_flatten_mapIdx {α β : Type} (l : List α) (f : Nat → α → List β) (b : β) :
    b ∈ (l.mapIdx f).flatten ↔ ∃ (k : Nat) (a : α), l[k]? = some a ∧ b ∈ f k a := by
  simp only [List.mem_flatten, List.mem_mapIdx, List.getElem?_eq_some_iff]
  constructor
  · rintro ⟨_, ⟨k, inside, rfl⟩, mem⟩
    exact ⟨k, _, ⟨inside, rfl⟩, mem⟩
  · rintro ⟨k, _, ⟨inside, rfl⟩, mem⟩
    exact ⟨_, ⟨k, inside, rfl⟩, mem⟩

/-- A fire of the boundary is one that has waited and is ready, or that of a trigger that fires here (S1 of R561). -/
theorem State.mem_boundaryDues (s : State) (sigs : List HostItem) (d : Due) :
    d ∈ s.boundaryDues sigs ↔ (∃ k, s.waiting[k]? = some d ∧ s.dueReady k d = true) ∨
      ∃ (i : Nat) (t : Trigger), s.trigs[i]? = some t ∧ (s.extFires sigs i t ≠ 0 ∨ s.pendingFires i t = true) ∧
        d = boundaryDue i t := by
  rw [State.boundaryDues, List.mem_append, mem_flatten_mapIdx, mem_flatten_mapIdx]
  refine or_congr ⟨?_, ?_⟩ (exists_congr fun i => exists_congr fun t => and_congr_right fun _ => ?_)
  · rintro ⟨k, a, waits, mem⟩
    split at mem
    case isTrue ready => exact ⟨k, List.mem_singleton.mp mem ▸ waits, List.mem_singleton.mp mem ▸ ready⟩
    case isFalse => cases mem
  · rintro ⟨k, waits, ready⟩
    exact ⟨k, d, waits, by rw [if_pos ready]; exact List.mem_singleton_self d⟩
  · rw [List.mem_replicate]
    refine and_congr_left fun _ => ?_
    cases s.pendingFires i t <;> simp

theorem State.extFires_ne_zero (s : State) (sigs : List HostItem) (i : Nat) (t : Trigger) (fires : s.extFires sigs i t ≠ 0) :
    ∃ f, t.tdata1.view = .tmext f ∧ s.mayFire t.tdata1 = true ∧ (s.extMatches sigs i f ≠ 0 ∨ t.extHeld = true) := by
  unfold State.extFires at fires
  split at fires
  case h_1 f view =>
    split at fires
    case isTrue may =>
      refine ⟨f, view, may, ?_⟩
      cases held : t.extHeld with
      | true => exact .inr rfl
      | false => exact .inl (by simpa [held] using fires)
    case isFalse => exact absurd rfl fires
  all_goals exact absurd rfl fires

theorem State.pendingFires_iff (s : State) (i : Nat) (t : Trigger) : s.pendingFires i t = true ↔
    ∃ f, t.tdata1.view = .icount f ∧ f.pending = true ∧ s.execNext = true ∧ t.tdata1.enabledIn s.mode = true ∧
      s.mayFire t.tdata1 = true ∧
      (s.cfg.precise = true ∨ Config.freeBit .impreciseNow s.draws (s.waiting.length + i) = true) := by
  unfold State.pendingFires
  split
  case h_1 f view =>
    simp only [Bool.and_eq_true, Bool.or_eq_true, and_assoc]
    exact ⟨fun fires => ⟨f, view, fires⟩, fun ⟨g, viewG, fires⟩ => by
      obtain rfl : f = g := View.icount.inj (view.symm.trans viewG)
      exact fires⟩
  all_goals
    next view =>
      refine iff_of_false Bool.false_ne_true ?_
      rintro ⟨f, viewF, -⟩
      rw [view] at viewF
      cases viewF

/-- What a boundary changes of a trigger is whether it holds an action. -/
theorem State.afterSignal_eq (s : State) (sigs : List HostItem) (i : Nat) (t : Trigger) :
    ∃ b, s.afterSignal sigs i t = { t with extHeld := b } := by
  unfold State.afterSignal
  split
  · exact ⟨_, rfl⟩
  all_goals exact ⟨t.extHeld, rfl⟩

/-- With no fires a boundary goes on. -/
theorem State.boundary_of_no_dues (s : State) (sigs : List HostItem) (noDues : s.boundaryDues sigs = []) :
    s.boundary sigs = .go ((s.setTrigs (s.trigs.mapIdx (s.afterSignal sigs))).setWaiting s.stillWaiting) := by
  rw [State.boundary, noDues]
  rfl

/-! ### Debug Mode -/

theorem State.boundaryDues_debug (s : State) (sigs : List HostItem) (debug : s.mode = .debug) : s.boundaryDues sigs = [] := by
  refine List.eq_nil_iff_forall_not_mem.mpr fun d mem => ?_
  have never (t : Tdata1) : ¬ s.mayFire t = true := by simp [s.mayFire_debug t debug]
  rcases (s.mem_boundaryDues sigs d).mp mem with ⟨k, -, ready⟩ | ⟨i, t, -, fires | fires, -⟩
  · exact never _ (Bool.and_eq_true_iff.mp ready).1
  · obtain ⟨f, -, may, -⟩ := s.extFires_ne_zero sigs i t fires
    exact never _ may
  · obtain ⟨f, -, -, -, -, may, -⟩ := (s.pendingFires_iff i t).mp fires
    exact never _ may

theorem State.countedTrigs_debug (s : State) (now : List Trigger) (wrote : Option Nat) (debug : s.mode = .debug) :
    State.countedTrigs s s now s.mode wrote = now := by
  refine List.ext_getElem? fun i => ?_
  rw [State.countedTrigs_get]
  cases now[i]? with
  | none => rfl
  | some t =>
    simp only [Option.map_some, Option.some_inj, State.countedAt]
    split
    · rw [if_neg]
      rw [State.countMatches_of_not_enabled s s s.mode i _ (by rw [debug]; exact View.enabledIn_debug _)]
      exact Bool.false_ne_true
    · rfl

/-- Settles O42: no mode enable covers Debug Mode, and no trigger may fire in it. -/
theorem nothingFiresInDebugMode : Obligations.NothingFiresInDebugMode := by
  intro s debug
  refine ⟨fun e r => s.observe_debug e r debug, fun h interrupt nmi code i t => ?_, fun sigs => ?_,
    fun now wrote => s.countedTrigs_debug now wrote debug⟩
  · exact h.trapMatches_of_not_enabled _ _ _ _ _ _ (by rw [debug]; exact View.enabledIn_debug _)
  · have noDues := s.boundaryDues_debug sigs debug
    refine ⟨noDues, _, s.boundary_of_no_dues sigs noDues, rfl, rfl, debug, ?_⟩
    rw [State.setWaiting_trigs, State.setTrigs_trigs]
    refine List.ext_getElem? fun i => ?_
    simp only [List.getElem?_map, List.getElem?_mapIdx]
    cases s.trigs[i]? with
    | none => rfl
    | some t =>
      obtain ⟨b, after⟩ := s.afterSignal_eq sigs i t
      simp only [Option.map_some, after]

/-! ### A disabled trigger -/

/-- With no input selected no signal is. -/
theorem Tmext.selected_of_enablesClear (cfg : Config) (sigs : List HostItem) (f : Tmext)
    (clear : (View.tmext f).enablesClear = true) : f.selected cfg sigs = 0 := by
  simp only [View.enablesClear, Bool.and_eq_true, Bool.not_eq_true', beq_iff_eq] at clear
  obtain ⟨intctl, select⟩ := clear
  rw [Tmext.selected, List.length_eq_zero_iff, List.filter_eq_nil_iff]
  intro item _
  cases item <;> simp [Tmext.selects, intctl, select]

theorem State.extMatches_of_enablesClear (s : State) (sigs : List HostItem) (i : Nat) (f : Tmext)
    (clear : (View.tmext f).enablesClear = true) : s.extMatches sigs i f = 0 := by
  rw [State.extMatches, f.selected_of_enablesClear s.cfg sigs clear, ite_self]

theorem State.ownVerdict_of_enablesClear (s : State) (i : Nat) (t : Trigger) (e : Event) (r : Rank)
    (clear : t.tdata1.view.enablesClear = true) : s.ownVerdict i t e r = .no := by
  by_cases typ : t.tdata1.view.typ = 7
  · cases view : t.tdata1.view with
    | tmext f => simp only [State.ownVerdict, Trigger.accessSel, view]
    | mcontrol | icount | itrigger | etrigger | mcontrol6 | disabled => rw [view] at typ; simp [View.typ] at typ
  · exact s.ownVerdict_of_not_enabled i t e r (View.enabledIn_of_enablesClear _ clear typ _)

theorem State.not_boundaryDue_of_enablesClear (s : State) (sigs : List HostItem) (i : Nat) (t : Trigger)
    (clear : t.tdata1.view.enablesClear = true) (held : t.extHeld = false) :
    ¬(s.extFires sigs i t ≠ 0 ∨ s.pendingFires i t = true) := by
  rintro (fires | fires)
  · obtain ⟨f, view, -, cause⟩ := s.extFires_ne_zero sigs i t fires
    rw [view] at clear
    rw [s.extMatches_of_enablesClear sigs i f clear, held] at cause
    simp at cause
  · obtain ⟨f, view, -, -, enabled, -⟩ := (s.pendingFires_iff i t).mp fires
    have off := View.enabledIn_of_enablesClear _ clear (by rw [view]; simp [View.typ]) s.mode
    exact Bool.false_ne_true (off.symm.trans enabled)

/-- Settles O25: each way to match asks for an enable or a selected input, and each way to fire for a match or a held action. -/
theorem disabledTriggerNeverMatches : Obligations.DisabledTriggerNeverMatches := by
  intro s h t i at_i clear held waits
  refine ⟨fun e r => s.ownVerdict_of_enablesClear i t e r clear, fun md a b c => ?_, fun md => ?_, fun sigs => ⟨?_, ?_⟩⟩
  · by_contra matched
    have matched : s.trapMatches md a b c i t = true := Bool.eq_true_of_not_eq_false matched
    have typ : t.tdata1.view.typ ≠ 7 := by
      rcases s.view_of_trapMatches md a b c i t matched with ⟨f, view⟩ | ⟨f, view⟩ <;> rw [view] <;> simp [View.typ]
    rw [s.trapMatches_of_not_enabled md a b c i t (View.enabledIn_of_enablesClear _ clear typ md)] at matched
    cases matched
  · by_cases typ : t.tdata1.view.typ = 7
    · simp [State.countMatches, Tdata1.typ, typ]
    · exact State.countMatches_of_not_enabled h s md i t (View.enabledIn_of_enablesClear _ clear typ md)
  · unfold State.afterSignal
    split
    case h_1 f view =>
      rw [view] at clear
      simp [s.extMatches_of_enablesClear sigs i f clear, held]
    all_goals exact held
  · intro d mem
    rcases (s.mem_boundaryDues sigs d).mp mem with ⟨k, waiting, -⟩ | ⟨j, u, at_j, fires, rfl⟩
    · exact waits d (List.mem_of_getElem? waiting)
    · rintro rfl
      obtain rfl : t = u := Option.some_inj.mp (at_i.symm.trans at_j)
      exact s.not_boundaryDue_of_enablesClear sigs _ t clear held fires

/-! ### A step -/

/-- An instruction whose fetch is observed and raises no exception. -/
theorem State.runInsn_eq_exec (s t u : State) (h : HostInsn) (i : Instr) (c : TmCsr) (decoded : decode h.insn h.ilen = .ok i)
    (name : tmCsr i.csr = some c) (fetches : h.fetchFault = none)
    (address : s.observe (s.execEvent h) .executeAddress = .go t) (data : t.observe (t.execEvent h) .executeData = .go u) :
    s.runInsn h = exec i u := by
  simp only [State.runInsn, Progress.andThen, address, fetches, data, State.runDecoded, decoded, State.runCsrInsn, name]

/-- A step at an instruction, past the boundary. -/
theorem step_eq_runInsn (s t : State) (h : HostInsn) (rest : List HostItem) (feed : s.feed = .insn h :: rest)
    (boundary : s.boundary [] = .go t) : step s = t.runInsn h := by
  have signals : signalsAt s.feed = [] := by rw [feed]; rfl
  have onward : s.Onward t := by simpa only [boundary, Progress.From] using s.boundary_from []
  have delivered : t.delivered = t := t.delivered_of_none (by rw [onward.feed, signals])
  have feed_t : t.feed = .insn h :: rest := onward.feed.trans feed
  simp only [step, signals, boundary, delivered, State.runNext, feed_t, State.runItem]

/-- Settles O18: past the boundary and both observations the step is `exec`, and each of the three leaves the hart alone. -/
theorem stepRunsDecodedInstruction : Obligations.StepRunsDecodedInstruction := by
  intro s a b d h rest i c feed decoded name fetches boundary address data
  have on_a : s.Onward a := by simpa only [boundary, Progress.From] using s.boundary_from []
  have on_b : a.Onward b := by simpa only [address, Progress.From] using a.observe_from (a.execEvent h) .executeAddress
  have on_d : b.Onward d := by simpa only [data, Progress.From] using b.observe_from (b.execEvent h) .executeData
  have on : s.Onward d := (on_a.trans on_b).trans on_d
  exact ⟨(step_eq_runInsn s a h rest feed boundary).trans (a.runInsn_eq_exec b d h i c decoded name fetches address data),
    on.pc, on.x, on.mode, on.host, on.feed, on.kept.tselect, on.kept.scontext, on.kept.mcontext, on.mte, on.mpte⟩

theorem State.quiet_iff (s : State) : s.quiet = true ↔ s.waiting = [] ∧ ∀ t ∈ s.trigs, t.tdata1.typ = 15 := by
  simp only [State.quiet, Bool.and_eq_true, List.isEmpty_iff, List.all_eq_true, beq_iff_eq]

theorem State.afterSignal_of_typ (s : State) (sigs : List HostItem) (i : Nat) (t : Trigger) (typ : t.tdata1.typ = 15) :
    s.afterSignal sigs i t = t := by
  obtain ⟨data, view⟩ := View.eq_disabled_of_typ _ typ
  simp only [State.afterSignal, view]

theorem State.boundary_quiet (s : State) (sigs : List HostItem) (quiet : s.quiet = true) : s.boundary sigs = .go s := by
  obtain ⟨waiting, typ⟩ := s.quiet_iff.mp quiet
  have noDues : s.boundaryDues sigs = [] := by
    refine List.eq_nil_iff_forall_not_mem.mpr fun d mem => ?_
    rcases (s.mem_boundaryDues sigs d).mp mem with ⟨k, waits, -⟩ | ⟨i, t, at_i, fires | fires, -⟩
    · rw [waiting] at waits
      cases waits
    all_goals obtain ⟨data, disabled⟩ := View.eq_disabled_of_typ _ (typ t (List.mem_of_getElem? at_i))
    · obtain ⟨f, view, -⟩ := s.extFires_ne_zero sigs i t fires
      rw [disabled] at view
      cases view
    · obtain ⟨f, view, -⟩ := (s.pendingFires_iff i t).mp fires
      rw [disabled] at view
      cases view
  have trigs : s.trigs.mapIdx (s.afterSignal sigs) = s.trigs := by
    refine List.ext_getElem? fun i => ?_
    rw [List.getElem?_mapIdx]
    cases at_i : s.trigs[i]? with
    | none => rfl
    | some t => rw [Option.map_some, s.afterSignal_of_typ sigs i t (typ t (List.mem_of_getElem? at_i))]
  have still : s.stillWaiting = s.waiting := by rw [State.stillWaiting, waiting]; rfl
  rw [s.boundary_of_no_dues sigs noDues, trigs, still]
  rfl

theorem State.verdictAt_of_typ (s : State) (e : Event) (r : Rank) (typ : ∀ t ∈ s.trigs, t.tdata1.typ = 15) (i : Nat) :
    s.verdictAt e r i = .no := by
  unfold State.verdictAt
  cases at_i : s.trigs[i]? with
  | none => rfl
  | some t =>
    obtain ⟨data, view⟩ := View.eq_disabled_of_typ _ (typ t (List.mem_of_getElem? at_i))
    simp only [State.ownVerdict, Trigger.accessSel, view]

/-- Nothing matches the event of a fetch, and no chain waits for its rank. -/
theorem State.observe_quiet (s : State) (e : Event) (r : Rank) (quiet : s.quiet = true) (fetch : r ≠ .loadData) :
    s.observe e r = .go s := by
  obtain ⟨-, typ⟩ := s.quiet_iff.mp quiet
  have verdict := s.verdictAt_of_typ e r typ
  have new : s.newMatches e r = [] := List.filter_eq_nil_iff.mpr fun i _ => by rw [verdict i]; exact Bool.false_ne_true
  have undefined : s.firstUndefined e r = none := List.find?_eq_none.mpr fun i _ => by rw [verdict i]; exact Bool.false_ne_true
  have deferred : s.deferredNow r = [] := if_neg fetch
  unfold State.observe
  split
  · rfl
  · rw [undefined, new, deferred]
    rfl

/-- Settles O19: neither the boundary nor the observations of the fetch change anything. -/
theorem quietStepIsExec : Obligations.QuietStepIsExec := by
  intro s h rest i c quiet feed decoded name fetches
  rw [step_eq_runInsn s s h rest feed (s.boundary_quiet [] quiet)]
  exact s.runInsn_eq_exec s s h i c decoded name fetches (s.observe_quiet _ _ quiet (by decide))
    (s.observe_quiet _ _ quiet (by decide))

end Sys2Proof.Machine
end

section
/-! What the match operations and the context filter compare, bit by bit (spec/42_memory_access_triggers.md R397, R400, R401;
spec/48_textra.md R530), and the reentrancy protections at an M-mode handler (spec/60_exceptions.md R569). -/

namespace Sys2Proof.Machine

/-! ### Masked operations -/

theorem getLsbD_lowOnes (n i : Nat) (short : n ≤ 64) : (lowOnes n).getLsbD i = decide (i < n) := by
  rw [← BitVec.testBit_toNat, toNat_lowOnes, min_eq_left short, Nat.testBit_two_pow_sub_one]

theorem Xlen.half_add_half (x : Xlen) : x.bits / 2 + x.bits / 2 = x.bits ∧ x.bits ≤ 64 := by cases x <;> decide

theorem Xlen.getLsbD_of_trunc (x : Xlen) (v : Word) (trunc : x.trunc v = v) (i : Nat) (out : x.bits ≤ i) :
    v.getLsbD i = false := by
  rw [← trunc]
  cases x with
  | x32 =>
    have out : ¬ i < 32 := Nat.not_lt.mpr out
    simp [Xlen.trunc, out]
  | x64 => exact BitVec.getLsbD_of_ge _ i out

/-- Mask low (R400): beyond the lower half both sides are 0. -/
theorem comparesOk_four (x : Xlen) (t2 c : Word) : comparesOk x 4 t2 c = true ↔
    ∀ b, b < x.bits / 2 → (c.getLsbD b && t2.getLsbD (b + x.bits / 2)) = t2.getLsbD b := by
  obtain ⟨whole, wide⟩ := Xlen.half_add_half x
  rw [show comparesOk x 4 t2 c = (c &&& lowOnes (x.bits / 2) &&& t2 >>> (x.bits / 2) == t2 &&& lowOnes (x.bits / 2)) from rfl,
    beq_iff_eq, BitVec.eq_of_getLsbD_eq_iff]
  simp only [BitVec.getLsbD_and, BitVec.getLsbD_ushiftRight, getLsbD_lowOnes _ _ (by omega : x.bits / 2 ≤ 64)]
  constructor
  · intro same b inside
    simpa [inside, Nat.add_comm] using same b (by omega)
  · intro same b _
    by_cases inside : b < x.bits / 2
    · simpa [inside, Nat.add_comm] using same b inside
    · simp [inside]

/-- Mask high (R401): the upper half of an XLEN-bit compare value is nothing beyond XLEN. -/
theorem comparesOk_five (x : Xlen) (t2 c : Word) (trunc : x.trunc c = c) : comparesOk x 5 t2 c = true ↔
    ∀ b, b < x.bits / 2 → (c.getLsbD (b + x.bits / 2) && t2.getLsbD (b + x.bits / 2)) = t2.getLsbD b := by
  obtain ⟨whole, wide⟩ := Xlen.half_add_half x
  rw [show comparesOk x 5 t2 c = (c >>> (x.bits / 2) &&& t2 >>> (x.bits / 2) == t2 &&& lowOnes (x.bits / 2)) from rfl,
    beq_iff_eq, BitVec.eq_of_getLsbD_eq_iff]
  simp only [BitVec.getLsbD_and, BitVec.getLsbD_ushiftRight, getLsbD_lowOnes _ _ (by omega : x.bits / 2 ≤ 64)]
  constructor
  · intro same b inside
    simpa [inside, Nat.add_comm] using same b (by omega)
  · intro same b _
    by_cases inside : b < x.bits / 2
    · simpa [inside, Nat.add_comm] using same b inside
    · simp [inside, Xlen.getLsbD_of_trunc x c trunc (x.bits / 2 + b) (by omega)]

/-- Settles O37: each masked operation is a positive one, and says bit by bit what it asks of a compare value. -/
theorem maskedMatches : Obligations.MaskedMatches := by
  intro x k cs t2
  refine ⟨?_, fun short _ => ?_⟩
  · rw [matchOp_positive x k 4 cs t2 (by decide) (by decide), Option.some_inj, List.any_eq_true]
    simp only [comparesOk_four]
  · rw [matchOp_positive x k 5 cs t2 (by decide) (by decide), Option.some_inj, List.any_eq_true]
    exact exists_congr fun c => and_congr_right fun mem => comparesOk_five x t2 c (short c mem)

/-! ### NAPOT -/

theorem ushiftRight_beq_iff (c v : Word) (n : Nat) : (c >>> n == v >>> n) = true ↔ c.toNat / 2 ^ n = v.toNat / 2 ^ n := by
  rw [beq_iff_eq, ← BitVec.toNat_inj, BitVec.toNat_ushiftRight, BitVec.toNat_ushiftRight, Nat.shiftRight_eq_div_pow,
    Nat.shiftRight_eq_div_pow]

/-- Settles O39: the index of the lowest 0 bit decides whether there is an answer, and then the bits above it what it is. -/
theorem napotMatches : Obligations.NapotMatches := by
  intro x k z cs t2 nonempty ones zero inside
  have lowest : lowestZero x.bits t2 = some z := (lowestZero_eq_some_iff _ _ _).mpr ⟨inside, zero, ones⟩
  have answer : matchOp x k 1 cs t2 =
      if z + 1 ≤ k ∧ z + 1 < x.bits then some (cs.any fun c => c >>> (z + 1) == t2 >>> (z + 1)) else none := by
    simp [matchOp, nonempty, lowest]
  rw [answer]
  refine ⟨fun supported => ?_, fun unsupported => if_neg unsupported⟩
  rw [if_pos supported, Option.some_inj, Bool.eq_iff_iff, List.any_eq_true, decide_eq_true_iff]
  simp only [ushiftRight_beq_iff]

/-! ### The byte mask -/

/-- The byte mask repeats each bit over its byte (R530). -/
theorem getLsbD_byteMask (k : BitVec 4) (i : Nat) (inside : i < 32) : (byteMask k).getLsbD i = k.getLsbD (i / 8) := by
  have all : ∀ (k : BitVec 4) (i : Fin 32), (byteMask k).getLsbD i = k.getLsbD (i / 8) := by decide
  exact all k ⟨i, inside⟩

/-- Settles O41: the masked words agree exactly if the unmasked bytes do. -/
theorem byteMaskSelectsBytes : Obligations.ByteMaskSelectsBytes := by
  intro s e select
  have condition : s.sOk e =
      (s.scontextLow &&& ~~~(byteMask e.sbytemask) == e.svalue &&& ~~~(byteMask e.sbytemask)) := by
    simp [State.sOk, select]
  rw [condition, beq_iff_eq, BitVec.eq_of_getLsbD_eq_iff]
  constructor
  · intro same k inside unmasked
    refine BitVec.eq_of_getLsbD_eq fun b small => ?_
    have bits := same (8 * k + b) (by omega)
    have byte : (8 * k + b) / 8 = k := by omega
    simp only [BitVec.getLsbD_and, BitVec.getLsbD_not, getLsbD_byteMask _ _ (by omega : 8 * k + b < 32), byte, unmasked] at bits
    simpa [small, (by omega : 8 * k + b < 32)] using bits.symm
  · intro bytes i inside
    simp only [BitVec.getLsbD_and, BitVec.getLsbD_not, getLsbD_byteMask _ _ inside]
    cases masked : e.sbytemask.getLsbD (i / 8) with
    | true => simp
    | false =>
      have byte := congrArg (fun v => v.getLsbD (i % 8)) (bytes (i / 8) (by omega) masked)
      have whole : 8 * (i / 8) + i % 8 = i := by omega
      simp only [BitVec.getLsbD_extractLsb', whole, (by omega : i % 8 < 8), decide_true, Bool.true_and] at byte
      rw [byte]

/-! ### The reentrancy protections -/

/-- A trap into M-mode clears what the protection reads (R566, R567): the interrupt enable, or `mte`. -/
theorem State.nativeInhibited_afterHostTrap (s : State) (interrupt : Bool) (code : Nat) (v : Word)
    (protection : s.cfg.reentrancy = .ieGating ∨ (s.cfg.reentrancy = .tcontrol ∧ s.cfg.hasTcontrol = true)) :
    (s.afterHostTrap .m interrupt code v).nativeInhibited .m = true := by
  rcases protection with gating | ⟨tcontrol, present⟩
  · simp [State.nativeInhibited, State.afterHostTrap, gating, HostCsrs.masked]
  · simp [State.nativeInhibited, State.afterHostTrap, tcontrol, State.stackTcontrol, present]

/-- Settles O43: in the state after the trap the protection holds back action 0 in M-mode, the handler's mode. -/
theorem protectionSparesMachineHandlers : Obligations.ProtectionSparesMachineHandlers := by
  intro s md interrupt nmi code i v t protection action
  have holds : (s.afterHostTrap .m interrupt code v).holdsBack t.tdata1 .m = true := by
    rw [State.holdsBack, action, s.nativeInhibited_afterHostTrap interrupt code v protection]
    rfl
  have mode : (s.afterHostTrap .m interrupt code v).mode = .m := by simp [State.afterHostTrap, Handler.mode]
  refine ⟨?_, holds⟩
  rw [State.trapMatches, mode, holds]
  exact Bool.and_false _

end Sys2Proof.Machine
end

section
/-! What the registers read and hold after a write (spec/40_csr_access.md R281, R286, R295; spec/11_state_trigger_types.md
R186). -/

namespace Sys2Proof.Machine

/-! ### `tselect` -/

theorem View.typ_ne_zero (v : View) : v.typ ≠ 0 := by cases v <;> simp [View.typ]

/-- Settles O21: what a write stores is an XLEN-bit value, and under it `tdata1` reads a trigger's type, or 0 where there is
none. -/
theorem selectReadBackFindsTheTriggers : Obligations.SelectReadBackFindsTheTriggers := by
  intro s v short
  have stored (small : v.toNat < s.trigs.length) : s.legalSelect v = v := if_pos small
  have readBack : (s.writeCsr .tselect v).1.readCsr .tselect = s.legalSelect v := s.legalSelect_trunc v short
  have tdata1 : (s.writeCsr .tselect v).1.readCsr .tdata1 =
      (match s.trigs[(s.legalSelect v).toNat]? with
       | some t => t.tdata1.image s.xlen
       | none => 0) := rfl
  refine ⟨stored, ?_⟩
  rw [readBack, tdata1]
  constructor
  · rintro ⟨held, typ⟩
    rw [held] at typ
    by_contra large
    rw [List.getElem?_eq_none (Nat.not_lt.mp large)] at typ
    exact typ (Nat.zero_div _)
  · intro small
    rw [stored small, List.getElem?_eq_getElem small]
    exact ⟨rfl, by rw [Tdata1.image_div]; exact View.typ_ne_zero _⟩

/-! ### A write of 0 to `tdata1` -/

/-- The type of a blank view is the one asked for, or 15. -/
theorem blankView_typ (cfg : Config) (p : TrigImpl) (n : Nat) (count : BitVec 14) (data : BitVec 59) :
    (blankView cfg p n count data).typ = 15 ∨ (blankView cfg p n count data).typ = n := by
  unfold blankView
  rw [View.normal_typ]
  split
  case h_7 => exact .inl rfl
  all_goals exact .inr rfl

theorem disabledValue_enablesClear (cfg : Config) (p : TrigImpl) : (disabledValue cfg p).view.enablesClear = true := by
  unfold disabledValue
  split
  · rfl
  · exact blankView_enablesClear cfg p _ 0 0

theorem disabledValue_typ (cfg : Config) (p : TrigImpl) : (multiType p = true → (disabledValue cfg p).typ = 15) ∧
    ((disabledValue cfg p).typ = 15 ∨ (disabledValue cfg p).typ = onlyType p) := by
  unfold disabledValue
  split
  · exact ⟨fun _ => rfl, .inl rfl⟩
  case isFalse keeps => exact ⟨fun multi => absurd (by rw [multi]; rfl) keeps, blankView_typ cfg p _ 0 0⟩

theorem interlocked_enablesClear (ts : List Trigger) (i : Nat) (n : Tdata1) :
    (interlocked ts i n).view.enablesClear = n.view.enablesClear := by
  rcases interlocked_cases ts i n with kept | unlinked
  · rw [kept]
  · rw [unlinked]
    obtain ⟨dmode, view⟩ := n
    cases view <;> rfl

theorem interlocked_typ (ts : List Trigger) (i : Nat) (n : Tdata1) : (interlocked ts i n).typ = n.typ := by
  rcases interlocked_cases ts i n with kept | unlinked
  · rw [kept]
  · rw [unlinked]
    obtain ⟨dmode, view⟩ := n
    cases view <;> rfl

theorem interlocked_action (ts : List Trigger) (i : Nat) (n : Tdata1) : (interlocked ts i n).action = n.action := by
  rcases interlocked_cases ts i n with kept | unlinked
  · rw [kept]
  · rw [unlinked]
    obtain ⟨dmode, view⟩ := n
    cases view <;> rfl

/-- A write of 0 asks for the disabled trigger, which no neighbour refuses (R286, R293). -/
theorem State.newTdata1_zero (s : State) (i : Nat) (t : Trigger) (debug : Bool) (owner : debug = true ∨ t.tdata1.dmode = false) :
    s.newTdata1 i t 0 debug = some (interlocked s.trigs i (disabledValue s.cfg t.impl)) := by
  have image : askedImage s.xlen 0 debug = 0 := by cases debug <;> simp [askedImage]
  have asked : s.askedTdata1 i t 0 debug = disabledValue s.cfg t.impl := if_pos image
  have allowed : (!debug && t.tdata1.dmode) = false := by rcases owner with owner | owner <;> simp [owner]
  have dmode : (disabledValue s.cfg t.impl).dmode = false := rfl
  have heeded (n : Tdata1) (clear : n.dmode = false) : s.ignoresDmodeSet i t.tdata1 n = false := by
    simp [State.ignoresDmodeSet, clear]
  rw [State.newTdata1, asked, allowed, heeded _ (by rw [interlocked_dmode, dmode])]
  rfl

theorem Tdata1.image_ne_zero (x : Xlen) (t : Tdata1) : t.image x ≠ 0 := by
  intro zero
  refine View.typ_ne_zero t.view ?_
  have typ := Tdata1.image_div x t
  rw [zero] at typ
  exact typ.symm.trans (Nat.zero_div _)

/-- Settles O24: what is stored is the disabled trigger of R287, whose type is not 0. -/
theorem writingZeroDisables : Obligations.WritingZeroDisables := by
  intro s t selected may
  have owner : (s.mode == .debug) = true ∨ t.tdata1.dmode = false := by
    simpa only [State.mayWrite, Bool.or_eq_true, Bool.not_eq_true'] using may
  have write : s.writeCsr .tdata1 0 = (s.storeTdata1 s.tselect.toNat
      (interlocked s.trigs s.tselect.toNat (disabledValue s.cfg t.impl)), some s.tselect.toNat) := by
    rw [State.writeCsr, State.writeTdata1, State.selected, selected]
    simp only [s.newTdata1_zero s.tselect.toNat t _ owner]
  obtain ⟨multi, single⟩ := disabledValue_typ s.cfg t.impl
  refine ⟨_, by rw [write, s.storeTdata1_get, selected, Option.map_some, if_pos rfl], ?_, rfl, ?_,
    Tdata1.image_ne_zero _ _, ?_, ?_⟩
  · exact (interlocked_enablesClear _ _ _).trans (disabledValue_enablesClear _ _)
  · exact interlocked_dmode _ _ _
  · exact fun h => (interlocked_typ _ _ _).trans (multi h)
  · exact fun _ => by rw [interlocked_typ]; exact single

/-! ### Action 1 -/

theorem actionLegal_ne_one (cfg : Config) (v : ViewImpl) (a : Nat) (legal : actionLegal cfg v false a = true) : a ≠ 1 := by
  rintro rfl
  simp [actionLegal] at legal

theorem View.action_ne_one_of_fieldsLegal (cfg : Config) (p : TrigImpl) (v : View) (fields : v.fieldsLegal cfg p false = true) :
    v.action ≠ 1 := by
  cases v with
  | disabled data => exact Nat.zero_ne_one
  | mcontrol | mcontrol6 =>
    simp only [View.fieldsLegal, Bool.and_eq_true, and_assoc] at fields
    obtain ⟨-, action, -⟩ := fields
    exact actionLegal_ne_one cfg _ _ action
  | icount | itrigger | etrigger | tmext =>
    obtain ⟨-, action⟩ := Bool.and_eq_true_iff.mp fields
    exact actionLegal_ne_one cfg _ _ action

/-- The blank `action` is a legal one, or 0. -/
theorem blankAction_ne_one (cfg : Config) (v : ViewImpl) (w : Nat) (wide : 4 ≤ w) :
    (BitVec.ofNat w (blankAction cfg v)).toNat ≠ 1 := by
  have legalOrZero : actionLegal cfg v false (blankAction cfg v) = true ∨ blankAction cfg v = 0 := by
    unfold blankAction firstLegal
    split
    case isTrue zero => exact .inl zero
    · cases found : v.actions.find? (actionLegal cfg v false) with
      | some a => exact .inl (List.find?_some found)
      | none => exact .inr rfl
  rcases legalOrZero with legal | zero
  · rw [toNat_ofNat_code _ (actionLegal_lt cfg v false _ legal) wide]
    exact actionLegal_ne_one cfg v _ legal
  · simp [zero]

theorem blankView_action_ne_one (cfg : Config) (p : TrigImpl) (n : Nat) (count : BitVec 14) (data : BitVec 59) :
    (blankView cfg p n count data).action ≠ 1 := by
  unfold blankView
  split
  case h_7 => exact Nat.zero_ne_one
  all_goals exact blankAction_ne_one cfg _ _ (by decide)

/-- Settles O29: a supported value has a legal action, and the disabled trigger's is one that is legal with `dmode` 0. -/
theorem actionOneNeedsDmode : Obligations.ActionOneNeedsDmode := by
  intro s i t v debug n stored dmode
  obtain ⟨-, rfl⟩ := s.newTdata1_some i t v debug n stored
  rw [interlocked_dmode] at dmode
  rw [interlocked_action]
  rcases s.askedTdata1_cases i t v debug with ⟨u, asked, supported⟩ | ⟨d, asked⟩
  · rw [asked] at dmode ⊢
    simp only [tdata1Supported, Bool.and_eq_true, and_assoc] at supported
    obtain ⟨fields, -⟩ := supported
    rw [Tdata1.fieldsLegal, dmode] at fields
    exact View.action_ne_one_of_fieldsLegal _ _ _ fields
  · rw [asked, Tdata1.action, disabledValue]
    split
    · exact Nat.zero_ne_one
    · exact blankView_action_ne_one _ _ _ _ _

/-! ### `tdata3` with XLEN = 32 -/

/-- The fields of `textra64` hold nothing beyond what `textra32` shows (R186). -/
structure Textra.Narrow (e : Textra) : Prop where
  mhvalue : e.mhvalue.toNat < 2 ^ 6
  sbytemask : e.sbytemask.toNat < 2 ^ 2
  svalue : e.svalue.toNat < 2 ^ 16

theorem Textra.narrow_ofImage32 (v : Word) : (Textra.ofImage32 v).Narrow := by
  obtain ⟨mhvalue, -, sbytemask, svalue, -⟩ := Textra.ofImage32_toNat v
  constructor <;> omega

theorem Textra.narrow_zero : Textra.Narrow {} := ⟨by decide, by decide, by decide⟩

theorem toNat_and_lt {w n : Nat} (a b : BitVec w) (small : a.toNat < n) : (a &&& b).toNat < n := by
  rw [BitVec.toNat_and]
  exact Nat.and_le_left.trans_lt small

/-- Tying bits to 0 leaves a narrow value narrow. -/
theorem Textra.Narrow.normal {e : Textra} (narrow : e.Narrow) (cfg : Config) (p : TrigImpl) (view : View) :
    (e.normal cfg p view).Narrow := by
  unfold Textra.normal
  split
  · have low : (if cfg.dxlen = .x32 then e.low32 else e).Narrow := by
      split
      · exact Textra.narrow_ofImage32 _
      · exact narrow
    refine ⟨toNat_and_lt _ _ low.mhvalue, toNat_and_lt _ _ low.sbytemask, ?_⟩
    dsimp only
    split
    · decide
    · exact toNat_and_lt _ _ low.svalue
  · exact Textra.narrow_zero

/-- All that a write may store is built from what it asks for and what the implementation offers, in the XLEN of the write. -/
theorem narrow_legalizeTdata3 (cfg : Config) (p : TrigImpl) (i : Nat) (t1 : Tdata1) (old v : Textra) (narrow : v.Narrow) :
    (legalizeTdata3 cfg p i t1 .x32 old v).Narrow := by
  have asked := narrow.normal cfg p t1.view
  unfold legalizeTdata3
  dsimp only
  split
  · exact asked
  · unfold tdata3Substitute
    cases found : List.find? (tdata3Legal cfg p t1.view) _ with
    | none => exact Textra.narrow_zero
    | some e =>
      rcases List.mem_pair.mp (List.mem_of_find?_eq_some found) with rfl | rfl
      · exact (Textra.narrow_ofImage32 _).normal cfg p t1.view
      · exact ⟨asked.mhvalue, asked.sbytemask, asked.svalue⟩

/-- In a legal trigger of a type with `textra`, a legal value has its tied bits 0. Where the trigger is disabled in that type, the
type is the only one it supports. -/
theorem Textra.normal_of_tdata3Legal (cfg : Config) (t : Trigger) (e : Textra) (legal : trigLegal cfg t = true)
    (textra : t.tdata1.view.hasTextra = true) (value : tdata3Legal cfg t.impl t.tdata1.view e = true) :
    e.normal cfg t.impl t.tdata1.view = e := by
  have tied (w : View) (base : tdata3Base cfg t.impl w e = true) : e.normal cfg t.impl w = e :=
    beq_iff_eq.mp (Bool.and_eq_true_iff.mp base).1
  unfold tdata3Legal at value
  split at value
  case isFalse => exact tied _ (Bool.and_eq_true_iff.mp value).1
  case isTrue disabled =>
    have not15 : t.tdata1.view.typ ≠ 15 := by
      intro typ
      obtain ⟨data, view⟩ := View.eq_disabled_of_typ _ typ
      rw [view] at textra
      cases textra
    have single : multiType t.impl = false := by
      rw [View.isDisabledForm, beq_false_of_ne not15] at disabled
      simp only [Bool.false_or, Bool.and_eq_true, Bool.not_eq_true', and_assoc] at disabled
      obtain ⟨single, -⟩ := disabled
      exact single
    obtain ⟨-, fields, -⟩ := (trigLegal_iff cfg t).mp legal
    have own : onlyType t.impl = t.tdata1.view.typ :=
      onlyType_of_has _ single _ ((Tdata1.typ_of_fieldsLegal cfg t.impl t.tdata1 fields).resolve_right not15)
    simp only [tdata3LegalForSome, List.any_eq_true, Bool.and_eq_true, and_assoc] at value
    obtain ⟨w, -, type, base, -⟩ := value
    have same : w.typ = t.tdata1.view.typ := (onlyType_of_has _ single _ type).symm.trans own
    rw [tdata3Base_congr cfg t.impl w t.tdata1.view e same] at base
    exact tied _ base

/-- With XLEN = 32 a read of `tdata3` shows the low bits, sign-extended value or not. -/
theorem Trigger.tdata3Image_toNat (t : Trigger) : (t.tdata3Image .x32).toNat = t.tdata3.image32.toNat := by
  have word : t.tdata3Image .x32 = t.tdata3.image32.setWidth 64 := ite_self _
  rw [word, BitVec.toNat_setWidth]
  exact Nat.mod_eq_of_lt (t.tdata3.image32.isLt.trans (by decide))

/-- Settles O35: every value that may be stored is narrow, one that is legal and not refused is stored, and a read is the image. -/
theorem narrowTextraWriteClearsHighBits : Obligations.NarrowTextraWriteClearsHighBits := by
  intro s i t v xlen textra
  have new : s.newTdata3 i t v = legalizeTdata3 s.cfg t.impl i t.tdata1 .x32 t.tdata3 (Textra.ofImage32 v) := by
    rw [State.newTdata3, xlen]
    rfl
  obtain ⟨mhvalue, sbytemask, svalue⟩ := narrow_legalizeTdata3 s.cfg t.impl i t.tdata1 t.tdata3 _ (Textra.narrow_ofImage32 v)
  rw [new]
  refine ⟨mhvalue, sbytemask, svalue, fun legal value accepted => ?_, fun u selected => ?_⟩
  · have tied := Textra.normal_of_tdata3Legal s.cfg t _ legal textra value
    have held := legalizeTdata3_legal s.cfg t.impl i t.tdata1 .x32 t.tdata3 _ tied value accepted
    rw [show Textra.ofImage .x32 v = Textra.ofImage32 v from rfl] at held
    rw [held]
    exact Textra.ofImage32_toNat v
  · have read : s.readCsr .tdata3 = u.tdata3Image .x32 := by
      simp only [State.readCsr, State.selected, selected, xlen]
    rw [read, u.tdata3Image_toNat, u.tdata3.image32_toNat]

end Sys2Proof.Machine
end

section
/-! Firing (spec/41_trigger_common.md section 2, spec/60_exceptions.md R552 to R559): the fires of a set change their triggers and
hand out their signals, and then their actions stop the hart or let it go on. -/

namespace Sys2Proof.Machine

/-! ### The outcomes of a service -/

/-- The state once the fires have changed their triggers and handed out their signals, before any trap or Debug Mode entry. -/
def State.signalled (s : State) (ds : List Due) : State :=
  (s.fireAll ds).emit (ds.filterMap fun d => actionSignal d.action)

theorem State.signalled_onward (s : State) (ds : List Due) : s.Onward (s.signalled ds) := s.fired_onward ds _

@[simp] theorem State.signalled_outbox (s : State) (ds : List Due) :
    (s.signalled ds).outbox = s.outbox ++ ds.filterMap fun d => actionSignal d.action := by
  rw [State.signalled, State.emit_outbox, State.fireAll_outbox]

@[simp] theorem State.signalled_trigs (s : State) (ds : List Due) : (s.signalled ds).trigs = (s.fireAll ds).trigs := rfl

theorem State.signalled_nil (s : State) : s.signalled [] = s := by simp [State.signalled, State.fireAll, State.emit]

theorem State.serve_eq_act (s : State) (ds : List Due) : s.serve ds = (s.signalled ds).act ds := by
  cases ds with
  | nil => rw [s.signalled_nil]; rfl
  | cons d ds => rfl

theorem any_action_iff (ds : List Due) (a : Nat) : (ds.any fun d => d.action == a) = true ↔ ∃ d ∈ ds, d.action = a := by
  simp only [List.any_eq_true, beq_iff_eq]

theorem any_action_eq_false (ds : List Due) (a : Nat) (none : ∀ d ∈ ds, d.action ≠ a) :
    (ds.any fun d => d.action == a) = false := by
  rw [List.any_eq_false]
  exact fun d mem => by simpa using none d mem

theorem State.act_of_signalsOnly (s : State) (ds : List Due) (signals : signalsOnly ds) : s.act ds = .go s := by
  rw [State.act, any_action_eq_false ds 1 fun d mem => (signals d mem).2, any_action_eq_false ds 0 fun d mem => (signals d mem).1]
  rfl

/-- Action 0 without action 1 is the breakpoint exception (R552, R557). -/
theorem State.act_of_breakpoint (s : State) (ds : List Due) (zero : ∃ d ∈ ds, d.action = 0)
    (noOne : ∀ d ∈ ds, d.action ≠ 1) : s.act ds = .stop (s.takeBreakpoint ds) := by
  rw [State.act, any_action_eq_false ds 1 noOne, (any_action_iff ds 0).mpr zero]
  rfl

/-- Action 1 where only Debug Mode entry takes place (R558). -/
theorem State.act_of_debugOnly (s : State) (ds : List Due) (one : ∃ d ∈ ds, d.action = 1)
    (only : s.cfg.bothActions = .debugOnly ∨ ∀ d ∈ ds, d.action ≠ 0) : s.act ds = .stop s.enterDebug := by
  have notBoth : ¬((ds.any fun d => d.action == 0) = true ∧ s.cfg.bothActions = .both) := by
    rintro ⟨zero, both⟩
    rcases only with only | none
    · rw [only] at both
      cases both
    · rw [any_action_eq_false ds 0 none] at zero
      cases zero
  rw [State.act, if_pos ((any_action_iff ds 1).mpr one), if_neg notBoth]

/-- The ways in which fires stop the hart. -/
theorem State.act_stop (s t : State) (ds : List Due) (stops : s.act ds = .stop t) :
    ((∃ d ∈ ds, d.action = 1) ∧ (t = s.enterDebug ∨ t = (s.takeBreakpoint ds).enterDebug)) ∨
      ((∀ d ∈ ds, d.action ≠ 1) ∧ (∃ d ∈ ds, d.action = 0) ∧ t = s.takeBreakpoint ds) := by
  unfold State.act at stops
  split at stops
  case isTrue one =>
    refine .inl ⟨(any_action_iff ds 1).mp one, ?_⟩
    split at stops
    · split at stops
      · cases stops
        exact .inr rfl
      · cases stops
    · cases stops
      exact .inl rfl
  case isFalse noOne =>
    split at stops
    case isTrue zero =>
      cases stops
      exact .inr ⟨fun d mem one => noOne ((any_action_iff ds 1).mpr ⟨d, mem, one⟩), (any_action_iff ds 0).mp zero, rfl⟩
    case isFalse => cases stops

theorem State.act_outbox (s t : State) (ds : List Due) (result : s.act ds = .go t ∨ s.act ds = .stop t) :
    ∃ more, t.outbox = s.outbox ++ more := by
  rcases result with go | stop
  · obtain ⟨rfl, -⟩ := s.act_go t ds go
    exact ⟨[], (List.append_nil _).symm⟩
  · rcases s.act_stop t ds stop with ⟨-, rfl | rfl⟩ | ⟨-, -, rfl⟩
    · exact ⟨_, s.enterDebug_outbox⟩
    · exact ⟨_, by rw [State.enterDebug_outbox, State.takeBreakpoint_outbox, List.append_assoc]⟩
    · exact ⟨_, s.takeBreakpoint_outbox ds⟩

/-! ### Signals -/

/-- Settles O44: without action 0 and 1 the service goes on, the protections concern action 0 alone, and every outcome comes after
the signals. -/
theorem signalsDoNotStopTheHart : Obligations.SignalsDoNotStopTheHart := by
  intro s ds signals
  have on := s.signalled_onward ds
  refine ⟨⟨s.signalled ds, ?_, on.pc, on.mode, on.host, on.x, on.trapM, on.trapS, on.trapVS, on.dpc, s.signalled_outbox ds⟩,
    fun d mem md => ?_, fun es t result => ?_⟩
  · rw [s.serve_eq_act, State.act_of_signalsOnly _ ds signals]
  · have notZero : (d.tdata1.action == 0) = false := beq_false_of_ne (signals d mem).1
    rw [State.holdsBack, notZero, Bool.false_and]
  · rw [s.serve_eq_act] at result
    obtain ⟨more, outbox⟩ := State.act_outbox _ t es result
    exact ⟨more, by rw [outbox, s.signalled_outbox]⟩

/-! ### The breakpoint and Debug Mode -/

theorem State.Onward.trapTarget {s t : State} (on : s.Onward t) (code : Nat) : t.trapTarget code = s.trapTarget code := by
  unfold State.trapTarget State.delegated State.hdelegated
  rw [on.mode, on.host, on.kept.cfg]

theorem State.takeBreakpoint_mode (s : State) (ds : List Due) : (s.takeBreakpoint ds).mode = (s.trapTarget 3).mode :=
  State.takeTrap_mode _ _ _ _ _ _

theorem State.takeBreakpoint_trapRegs (s : State) (ds : List Due) :
    (s.takeBreakpoint ds).trapRegs (s.trapTarget 3) = ⟨s.pc, false, 3, s.chooseTval ds⟩ := by
  rw [State.takeBreakpoint, State.takeTrap_trapRegs, if_pos rfl, State.emit_pc]

theorem mem_tvalCandidates (ds : List Due) (v : Word) :
    v ∈ tvalCandidates ds ↔ ∃ d ∈ ds, d.action = 0 ∧ v ∈ d.tvals := by
  simp only [tvalCandidates, List.mem_flatMap, List.mem_filter, beq_iff_eq, and_assoc]

/-- Settles O46: the service takes the breakpoint, whose `tval` is one of the candidates. -/
theorem breakpointIsTakenOnce : Obligations.BreakpointIsTakenOnce := by
  intro s ds asked noOne
  obtain ⟨d, mem, zero, values⟩ := asked
  obtain ⟨w, value⟩ := List.exists_mem_of_ne_nil _ values
  have on := s.signalled_onward ds
  have candidates : tvalCandidates ds ≠ [] := List.ne_nil_of_mem ((mem_tvalCandidates ds w).mpr ⟨d, mem, zero, value⟩)
  refine ⟨(s.signalled ds).takeBreakpoint ds, (s.signalled ds).chooseTval ds, ?_, ?_, ?_, ?_, ?_, ?_, ?_⟩
  · rw [s.serve_eq_act, State.act_of_breakpoint _ ds ⟨d, mem, zero⟩ noOne]
  · exact (mem_tvalCandidates ds _).mp (oneOf_mem _ candidates)
  · rw [← on.trapTarget 3, State.takeBreakpoint_trapRegs, on.pc]
  · rw [State.takeBreakpoint_mode, on.trapTarget 3]
  · rw [State.takeBreakpoint_outbox, s.signalled_outbox]
  · rw [State.takeBreakpoint_x, on.x]
  · rw [State.takeBreakpoint_dpc, on.dpc]

/-- Settles O47: the service enters Debug Mode, which writes `dpc` and the mode and no trap register. -/
theorem debugEntryIsNoTrap : Obligations.DebugEntryIsNoTrap := by
  intro s ds one only
  have on := s.signalled_onward ds
  refine ⟨(s.signalled ds).enterDebug, ?_, State.enterDebug_mode _, ?_, ?_, ?_, ?_, ?_, ?_, ?_, ?_, ?_⟩
  · rw [s.serve_eq_act, State.act_of_debugOnly _ ds one (by rw [on.kept.cfg]; exact only)]
  · rw [State.enterDebug_dpc, on.pc]
  · rw [State.enterDebug_pc, on.pc]
  · rw [State.enterDebug_trapM, on.trapM]
  · rw [State.enterDebug_trapS, on.trapS]
  · rw [State.enterDebug_trapVS, on.trapVS]
  · rw [State.enterDebug_mte, on.mte]
  · rw [State.enterDebug_mpte, on.mpte]
  · rw [State.enterDebug_x, on.x]
  · rw [State.enterDebug_outbox, s.signalled_outbox, on.pc]

/-- Settles O49: a trap stacks `tcontrol` only into M-mode, and the return takes the stacked value. -/
theorem tcontrolIsStacked : Obligations.TcontrolIsStacked := by
  intro s target interrupt nmi code v present
  obtain ⟨mte, mpte⟩ := s.takeTrap_tcontrol target interrupt nmi code v
  have restored : s.returnFromTrap = s.setTcontrol s.mpte s.mpte := if_pos present
  refine ⟨fun machine => ?_, fun other => ?_, s.enterDebug_mte, s.enterDebug_mpte, ?_, ?_⟩
  · rw [mte, mpte, if_pos ⟨machine, present⟩, if_pos ⟨machine, present⟩]
    exact ⟨rfl, rfl⟩
  · rw [mte, mpte, if_neg fun stacked => other stacked.1, if_neg fun stacked => other stacked.1]
    exact ⟨rfl, rfl⟩
  · rw [restored, State.setTcontrol_mte]
  · rw [restored, State.setTcontrol_mpte]

/-! ### `hit` -/

/-- Trigger `j` after the fires of the list, one by one. -/
def Trigger.firedAll (j : Nat) (ds : List Due) (t : Trigger) : Trigger :=
  ds.foldl (fun t d => if j = d.trig then t.fired d else t) t

/-- The fires of the list reach each trigger on its own. -/
theorem State.fireAll_get (s : State) (ds : List Due) (j : Nat) :
    (s.fireAll ds).trigs[j]? = (s.trigs[j]?).map (Trigger.firedAll j ds) := by
  induction ds generalizing s with
  | nil => exact Option.map_id'.symm
  | cons d ds ih =>
    have first : s.fireAll (d :: ds) = (s.modifyTrig d.trig fun t => t.fired d).fireAll ds := rfl
    rw [first, ih, State.modifyTrig_get, Option.map_map]
    rfl

theorem Trigger.firedAll_of_not_mem (j : Nat) (ds : List Due) (t : Trigger) (others : ∀ d ∈ ds, d.trig ≠ j) :
    t.firedAll j ds = t := by
  induction ds with
  | nil => rfl
  | cons d ds ih =>
    obtain ⟨other, others⟩ := List.forall_mem_cons.mp others
    rw [Trigger.firedAll, List.foldl_cons, if_neg other.symm]
    exact ih others

/-- A trigger that is listed once fires once. -/
theorem Trigger.firedAll_of_nodup (ds : List Due) (t : Trigger) (once : (ds.map Due.trig).Nodup) (d : Due) (mem : d ∈ ds) :
    t.firedAll d.trig ds = t.fired d := by
  induction ds with
  | nil => cases mem
  | cons e ds ih =>
    obtain ⟨apart, once⟩ := List.nodup_cons.mp once
    rw [Trigger.firedAll, List.foldl_cons]
    rcases List.mem_cons.mp mem with rfl | later
    · rw [if_pos rfl]
      exact Trigger.firedAll_of_not_mem d.trig ds _ fun f inside same => apart (List.mem_map.mpr ⟨f, inside, same⟩)
    · rw [if_neg fun same => apart (List.mem_map.mpr ⟨d, later, same⟩)]
      exact ih once later

/-- A trigger that still has the type it matched with. -/
theorem Trigger.fired_of_typ (t : Trigger) (d : Due) (same : t.tdata1.typ = d.tdata1.typ) :
    t.fired d = { t with tdata1 := { t.tdata1 with view := t.tdata1.view.fired t.impl d.firedAt d.uncertain } } := if_pos same

theorem View.fired_typ (p : TrigImpl) (time : FireTime) (uncertain : Bool) (v : View) : (v.fired p time uncertain).typ = v.typ := by
  cases v <;> rfl

theorem FireTime.code_bits (time : FireTime) :
    (FireTime.code time)[0] = (time != .after) ∧ (FireTime.code time)[1] = (time != .before) := by
  cases time <;> decide

/-- What firing leaves in the `hit` bits of each view (R341, spec/11_state_trigger_types.md R105). -/
theorem View.fired_hit (p : TrigImpl) (time : FireTime) (uncertain : Bool) (v : View) :
    (∀ f, v.fired p time uncertain = .mcontrol f → p.mcontrol.hit = true → f.hit = true) ∧
    (∀ f, v.fired p time uncertain = .icount f → p.icount.hit = true → f.hit = true) ∧
    (∀ f, v.fired p time uncertain = .itrigger f → p.itrigger.hit = true → f.hit = true) ∧
    (∀ f, v.fired p time uncertain = .etrigger f → p.etrigger.hit = true → f.hit = true) ∧
    (∀ f, v.fired p time uncertain = .tmext f → p.tmext.hit = true → f.hit = true) ∧
    (∀ f, v.fired p time uncertain = .mcontrol6 f → p.mcontrol6.hit = true → f.hit0 = (time != .after)) ∧
    (∀ f, v.fired p time uncertain = .mcontrol6 f → p.mcontrol6.hit1 = true → f.hit1 = (time != .before)) := by
  obtain ⟨bit0, bit1⟩ := FireTime.code_bits time
  cases v with
  | mcontrol g => simp +contextual [View.fired, Mcontrol.fired]
  | itrigger g => simp +contextual [View.fired, Itrigger.fired]
  | etrigger g => simp +contextual [View.fired, Etrigger.fired]
  | tmext g => simp +contextual [View.fired, Tmext.fired]
  | mcontrol6 g => simp +contextual [View.fired, Mcontrol6.fired, bit0, bit1]
  | disabled data => simp [View.fired]
  | icount g =>
    have hit : (g.fired p).hit = (g.hit || p.icount.hit) := by
      unfold Icount.fired
      split <;> rfl
    simp +contextual [View.fired, hit]

/-- Settles O45: the one fire that reaches the trigger sets `hit` of its view. -/
theorem hitIsSetForAll : Obligations.HitIsSetForAll := by
  intro s ds once d mem t at_d same
  refine ⟨t.fired d, ?_, ?_, ?_⟩
  · rw [State.fireAll_get, at_d, Option.map_some, Trigger.firedAll_of_nodup ds t once d mem]
  · rw [t.fired_of_typ d same]
    exact View.fired_typ _ _ _ _
  · rw [t.fired_of_typ d same]
    exact View.fired_hit _ _ _ _

/-! ### `tval` at a boundary -/

theorem State.chooseTval_eq_zero (s : State) (ds : List Due) (zeros : ∀ d ∈ ds, d.tvals = [0]) : s.chooseTval ds = 0 := by
  unfold State.chooseTval
  by_cases none : tvalCandidates ds = []
  · rw [none]
    rfl
  · obtain ⟨d, mem, -, value⟩ := (mem_tvalCandidates ds _).mp (oneOf_mem (Config.freeNat .tvalChoice s.draws 0) none)
    rw [zeros d mem] at value
    exact List.mem_singleton.mp value

/-- The state at a boundary, its external signals delivered, before its fires. -/
def State.withSignals (s : State) (sigs : List HostItem) : State :=
  (s.setTrigs (s.trigs.mapIdx (s.afterSignal sigs))).setWaiting s.stillWaiting

theorem State.withSignals_onward (s : State) (sigs : List HostItem) : s.Onward (s.withSignals sigs) :=
  ⟨(State.Kept.setTrigs s _ (evolves_mapIdx _ _ _ fun i t => s.afterSignal_evolves _ sigs i t)).trans
    (.of_eq rfl rfl rfl rfl rfl rfl rfl), rfl, rfl, rfl, rfl, rfl, rfl, rfl, rfl, rfl, rfl, rfl⟩

/-- A boundary is a service of its fires. -/
theorem State.boundary_eq_act (s : State) (sigs : List HostItem) :
    s.boundary sigs = ((s.withSignals sigs).signalled (s.boundaryDues sigs)).act (s.boundaryDues sigs) :=
  (s.withSignals sigs).serve_eq_act _

theorem State.boundary_onward (s : State) (sigs : List HostItem) :
    s.Onward ((s.withSignals sigs).signalled (s.boundaryDues sigs)) :=
  (s.withSignals_onward sigs).trans (State.signalled_onward _ _)

/-- Settles O52: with no earlier match waiting every fire has the `tval` 0, and a boundary that stops outside Debug Mode takes the
breakpoint. -/
theorem boundaryBreakpointWritesZeroTval : Obligations.BoundaryBreakpointWritesZeroTval := by
  intro s t sigs waiting stops outside
  have on := s.boundary_onward sigs
  have zeros : ∀ d ∈ s.boundaryDues sigs, d.tvals = [0] := by
    intro d mem
    rcases (s.mem_boundaryDues sigs d).mp mem with ⟨k, waits, -⟩ | ⟨i, u, -, -, rfl⟩
    · rw [waiting] at waits
      cases waits
    · rfl
  rw [s.boundary_eq_act] at stops
  rcases State.act_stop _ t _ stops with ⟨-, rfl | rfl⟩ | ⟨-, -, rfl⟩
  · exact absurd (State.enterDebug_mode _) outside
  · exact absurd (State.enterDebug_mode _) outside
  · refine ⟨_, ?_, State.takeBreakpoint_mode _ _⟩
    rw [State.takeBreakpoint_trapRegs, State.chooseTval_eq_zero _ _ zeros, on.pc]

end Sys2Proof.Machine
end

section
/-! `count` and `pending` of an icount trigger over a retirement, a trap and a boundary (spec/45_icount.md R474 to R480). -/

namespace Sys2Proof.Machine

/-! ### Counting and firing one trigger -/

theorem Icount.counted_of_zero (p : TrigImpl) (f : Icount) (zero : f.count = 0) : f.counted p = f := by
  simp [Icount.counted, zero]

theorem Icount.counted_of_one (p : TrigImpl) (f : Icount) (one : f.count = 1) :
    f.counted p = { f with pending := true, count := if p.countHardwired then 1 else 0 } := by
  simp [Icount.counted, one]

theorem Icount.counted_of_more (p : TrigImpl) (f : Icount) (more : 1 < f.count.toNat) :
    f.counted p = { f with count := f.count - 1 } := if_pos more

/-- Counting sets `pending` and never clears it. -/
theorem Icount.counted_pending (p : TrigImpl) (f : Icount) (pending : f.pending = true) : (f.counted p).pending = true := by
  unfold Icount.counted
  split
  · exact pending
  · split
    · rfl
    · exact pending

theorem Icount.fired_fields (p : TrigImpl) (f : Icount) :
    (f.fired p).pending = false ∧ (f.fired p).count = f.count ∧ (f.fired p).hit = (f.hit || p.icount.hit) := by
  unfold Icount.fired
  dsimp only
  split <;> exact ⟨rfl, rfl, rfl⟩

theorem Icount.fired_of_hardwired (p : TrigImpl) (f : Icount) (hardwired : p.countHardwired = true) :
    (f.fired p).m = false ∧ (f.fired p).s = false ∧ (f.fired p).u = false ∧ (f.fired p).vs = false ∧
      (f.fired p).vu = false := by
  simp [Icount.fired, hardwired]

theorem Icount.fired_of_not_hardwired (p : TrigImpl) (f : Icount) (counts : p.countHardwired = false) :
    f.fired p = { f with pending := false, hit := f.hit || p.icount.hit } := by
  simp [Icount.fired, counts]

theorem Icount.fired_fired (p : TrigImpl) (f : Icount) : (f.fired p).fired p = f.fired p := by
  unfold Icount.fired
  cases p.countHardwired <;> simp

/-- With a hard-wired `count` a fire leaves the trigger in no mode enabled (R479). -/
theorem Icount.enabledIn_fired_of_hardwired (p : TrigImpl) (f : Icount) (hardwired : p.countHardwired = true) (md : Mode) :
    (View.icount (f.fired p)).enabledIn md = false := by
  obtain ⟨m, s, u, vs, vu⟩ := f.fired_of_hardwired p hardwired
  exact View.enabledIn_of_enablesClear _ (by simp [View.enablesClear, m, s, u, vs, vu]) (by simp [View.typ]) md

/-! ### Retirement and traps -/

theorem State.countMatches_iff (was s : State) (md : Mode) (i : Nat) (t : Trigger) : State.countMatches was s md i t = true ↔
    t.tdata1.typ = 3 ∧ t.tdata1.enabledIn md = true ∧ s.textraOk t = true ∧ s.unblocked i = true ∧
      was.holdsBack t.tdata1 md = false := by
  simp only [State.countMatches, Bool.and_eq_true, beq_iff_eq, Bool.not_eq_true', and_assoc]

/-- A trigger that an instruction or a trap has not written, and that matches it. -/
theorem State.countedAt_of_matches (was at_ : State) (md : Mode) (i : Nat) (t : Trigger) (f : Icount)
    (old : was.trigs[i]? = some t) (view : t.tdata1.view = .icount f) (matched : State.countMatches was at_ md i t = true) :
    (State.countedAt was at_ md none i t).tdata1.view = .icount (f.counted t.impl) := by
  simp [State.countedAt, old, matched, Trigger.countedFrom, view]

theorem State.countedAt_of_not_matches (was at_ : State) (md : Mode) (i : Nat) (t : Trigger) (old : was.trigs[i]? = some t)
    (unmatched : ¬State.countMatches was at_ md i t = true) : State.countedAt was at_ md none i t = t := by
  simp only [State.countedAt, old, if_neg unmatched]

theorem State.retire_get (s : State) (i : Nat) (t : Trigger) (at_i : s.trigs[i]? = some t) :
    (State.retire s s none).trigs[i]? = some (State.countedAt s s s.mode none i t) := by
  rw [State.retire_trigs, State.countedTrigs_get, at_i, Option.map_some]

/-- A trap counts a type 3 trigger, and does nothing else to it. -/
theorem State.takeTrap_get (s : State) (h : Handler) (b n : Bool) (code : Nat) (v : Word) (i : Nat) (t : Trigger) (f : Icount)
    (at_i : s.trigs[i]? = some t) (view : t.tdata1.view = .icount f) :
    (s.takeTrap h b n code v).trigs[i]? = some (State.countedAt s (s.afterHostTrap h b code v) s.mode none i t) := by
  obtain ⟨-, -, -, -, -, -, -, counted⟩ := State.sameButCount_countedAt s (s.afterHostTrap h b code v) s.mode none i t
  obtain ⟨c, pending, counted⟩ := counted f view
  rw [State.takeTrap_trigs, List.getElem?_mapIdx, State.countTrap_eq, State.setTrigs_trigs, State.countedTrigs_get,
    State.afterHostTrap_trigs, at_i, Option.map_some, Option.map_some, if_neg]
  intro matched
  rcases State.view_of_trapMatches _ _ _ _ _ _ _ matched with ⟨g, other⟩ | ⟨g, other⟩ <;>
    (rw [counted] at other; cases other)

theorem State.unblocked_afterHostTrap (s : State) (h : Handler) (b : Bool) (code : Nat) (v : Word) (i : Nat) :
    (s.afterHostTrap h b code v).unblocked i = s.unblocked i := by
  unfold State.unblocked State.hasMatched
  rw [s.afterHostTrap_trigs]
  simp [State.afterHostTrap]

/-- Settles O50: the trigger matches the retirement or the trap, and counts it. -/
theorem countReachesZeroAndStays : Obligations.CountReachesZeroAndStays := by
  intro s i t f target interrupt nmi code v at_i view enabled unblocked free after event
  have typ : t.tdata1.typ = 3 := by rw [Tdata1.typ, view]; rfl
  have counted : ∃ u : Trigger, after.trigs[i]? = some u ∧ u.tdata1.view = .icount (f.counted t.impl) := by
    rcases event with ⟨rfl, textra⟩ | ⟨rfl, textra⟩
    · exact ⟨_, s.retire_get i t at_i, State.countedAt_of_matches s s s.mode i t f at_i view
        ((State.countMatches_iff _ _ _ _ _).mpr ⟨typ, enabled, textra, unblocked, free⟩)⟩
    · exact ⟨_, s.takeTrap_get target interrupt nmi code v i t f at_i view,
        State.countedAt_of_matches s _ s.mode i t f at_i view ((State.countMatches_iff _ _ _ _ _).mpr
          ⟨typ, enabled, textra, (s.unblocked_afterHostTrap _ _ _ _ i).trans unblocked, free⟩)⟩
  obtain ⟨u, at_u, view_u⟩ := counted
  exact ⟨u, at_u, fun one => by rw [view_u, f.counted_of_one _ one], fun zero => by rw [view_u, f.counted_of_zero _ zero],
    fun more => by rw [view_u, f.counted_of_more _ more]⟩

/-! ### A boundary -/

/-- The fires of a list leave an icount trigger as it was, or fired; fired if the list has a fire of it as icount. -/
theorem Trigger.firedAll_icount (j : Nat) (ds : List Due) (t : Trigger) (f : Icount) (view : t.tdata1.view = .icount f) :
    ∃ g, (t.firedAll j ds).tdata1.view = .icount g ∧ (t.firedAll j ds).impl = t.impl ∧ (g = f ∨ g = f.fired t.impl) ∧
      ((∃ d ∈ ds, d.trig = j ∧ d.tdata1.typ = 3) → g = f.fired t.impl) := by
  induction ds generalizing t f with
  | nil => exact ⟨f, view, rfl, .inl rfl, fun ⟨d, mem, _⟩ => by cases mem⟩
  | cons d ds ih =>
    have typ : t.tdata1.typ = 3 := by rw [Tdata1.typ, view]; rfl
    rw [Trigger.firedAll, List.foldl_cons]
    by_cases fires : d.trig = j ∧ d.tdata1.typ = 3
    · obtain ⟨trig, type⟩ := fires
      rw [if_pos trig.symm, t.fired_of_typ d (typ.trans type.symm)]
      obtain ⟨g, view_g, impl, either, -⟩ := ih
        { t with tdata1 := { t.tdata1 with view := t.tdata1.view.fired t.impl d.firedAt d.uncertain } } (f.fired t.impl)
        (by rw [view]; rfl)
      have fired : g = f.fired t.impl := either.elim id fun again => again.trans (f.fired_fired t.impl)
      exact ⟨g, view_g, impl, .inr fired, fun _ => fired⟩
    · have same : (if j = d.trig then t.fired d else t) = t := by
        split
        case isTrue trig =>
          rw [Trigger.fired, if_neg]
          exact fun type => fires ⟨trig.symm, type.symm.trans typ⟩
        · rfl
      rw [same]
      obtain ⟨g, view_g, impl, either, fired⟩ := ih t f view
      refine ⟨g, view_g, impl, either, ?_⟩
      rintro ⟨e, mem, e_fires⟩
      rcases List.mem_cons.mp mem with rfl | later
      · exact absurd e_fires fires
      · exact fired ⟨e, later, e_fires⟩

theorem State.withSignals_get (s : State) (sigs : List HostItem) (i : Nat) (t : Trigger) (f : Icount)
    (at_i : s.trigs[i]? = some t) (view : t.tdata1.view = .icount f) : (s.withSignals sigs).trigs[i]? = some t := by
  rw [State.withSignals, State.setWaiting_trigs, State.setTrigs_trigs, List.getElem?_mapIdx, at_i, Option.map_some]
  simp only [State.afterSignal, view]

theorem State.boundary_signalled_get (s : State) (sigs : List HostItem) (ds : List Due) (i : Nat) (t : Trigger) (f : Icount)
    (at_i : s.trigs[i]? = some t) (view : t.tdata1.view = .icount f) :
    ((s.withSignals sigs).signalled ds).trigs[i]? = some (t.firedAll i ds) := by
  rw [State.signalled_trigs, State.fireAll_get, s.withSignals_get sigs i t f at_i view, Option.map_some]

/-- Whatever the fires do then, an icount trigger stays as it is, but where a trap counts it. -/
theorem State.act_get (s a : State) (ds : List Due) (i : Nat) (t : Trigger) (f : Icount) (at_i : s.trigs[i]? = some t)
    (view : t.tdata1.view = .icount f) (result : s.act ds = .go a ∨ s.act ds = .stop a) :
    ∃ (u : Trigger) (n : Icount), a.trigs[i]? = some u ∧ u.tdata1.view = .icount n ∧
      (n = f ∨ (n = f.counted t.impl ∧ t.tdata1.enabledIn s.mode = true ∧ s.act ds = .stop a)) := by
  rcases result with go | stop
  · obtain ⟨rfl, -⟩ := s.act_go a ds go
    exact ⟨t, f, at_i, view, .inl rfl⟩
  have trapped : ∃ (u : Trigger) (n : Icount), (s.takeBreakpoint ds).trigs[i]? = some u ∧ u.tdata1.view = .icount n ∧
      (n = f ∨ (n = f.counted t.impl ∧ t.tdata1.enabledIn s.mode = true)) := by
    have at_trap := State.takeTrap_get (s.emit [.breakpoint (s.chooseTval ds)]) (s.trapTarget 3) false false 3 (s.chooseTval ds)
      i t f at_i view
    rw [State.emit_mode] at at_trap
    by_cases matched : State.countMatches (s.emit [.breakpoint (s.chooseTval ds)])
        ((s.emit [.breakpoint (s.chooseTval ds)]).afterHostTrap (s.trapTarget 3) false 3 (s.chooseTval ds)) s.mode i t = true
    · obtain ⟨-, enabled, -⟩ := (State.countMatches_iff _ _ _ _ _).mp matched
      exact ⟨_, _, at_trap, State.countedAt_of_matches _ _ _ i t f at_i view matched, .inr ⟨rfl, enabled⟩⟩
    · rw [State.countedAt_of_not_matches (s.emit _) _ _ i t at_i matched] at at_trap
      exact ⟨t, f, at_trap, view, .inl rfl⟩
  obtain ⟨u, n, at_u, view_u, outcome⟩ := trapped
  have outcome := outcome.imp_right fun ⟨counted, enabled⟩ => And.intro counted (And.intro enabled stop)
  rcases s.act_stop a ds stop with ⟨-, rfl | rfl⟩ | ⟨-, -, rfl⟩
  · exact ⟨t, f, by rw [State.enterDebug_trigs, at_i], view, .inl rfl⟩
  · exact ⟨u, n, by rw [State.enterDebug_trigs, at_u], view_u, outcome⟩
  · exact ⟨u, n, at_u, view_u, outcome⟩

/-- Where only Debug Mode entry takes place the fires always have a continuation (R558, U2). -/
theorem State.act_total (s : State) (ds : List Due) (debugOnly : s.cfg.bothActions = .debugOnly) :
    ∃ a, s.act ds = .go a ∨ s.act ds = .stop a := by
  by_cases one : ∃ d ∈ ds, d.action = 1
  · exact ⟨_, .inr (s.act_of_debugOnly ds one (.inl debugOnly))⟩
  · have noOne : ∀ d ∈ ds, d.action ≠ 1 := fun d mem is => one ⟨d, mem, is⟩
    by_cases zero : ∃ d ∈ ds, d.action = 0
    · exact ⟨_, .inr (s.act_of_breakpoint ds zero noOne)⟩
    · exact ⟨_, .inl (s.act_of_signalsOnly ds fun d mem => ⟨fun is => zero ⟨d, mem, is⟩, noOne d mem⟩)⟩

/-- Away from an `Exec` event a pending icount does not fire and stays pending (R478). -/
theorem State.boundary_not_exec (s : State) (sigs : List HostItem) (i : Nat) (t : Trigger) (f : Icount)
    (at_i : s.trigs[i]? = some t) (view : t.tdata1.view = .icount f) (pending : f.pending = true) (notExec : s.execNext = false)
    (waits : ∀ d ∈ s.waiting, d.trig ≠ i) : (∀ d ∈ s.boundaryDues sigs, d.trig ≠ i) ∧
      ∀ a, s.boundary sigs = .go a ∨ s.boundary sigs = .stop a →
        ∃ (u : Trigger) (n : Icount), a.trigs[i]? = some u ∧ u.tdata1.view = .icount n ∧ n.pending = true := by
  have others : ∀ d ∈ s.boundaryDues sigs, d.trig ≠ i := by
    intro d mem
    rcases (s.mem_boundaryDues sigs d).mp mem with ⟨k, waiting, -⟩ | ⟨j, u, at_j, fires, rfl⟩
    · exact waits d (List.mem_of_getElem? waiting)
    · rintro rfl
      obtain rfl : t = u := Option.some_inj.mp (at_i.symm.trans at_j)
      rcases fires with fires | fires
      · obtain ⟨g, other, -⟩ := s.extFires_ne_zero sigs _ t fires
        rw [view] at other
        cases other
      · obtain ⟨g, -, -, exec, -⟩ := (s.pendingFires_iff _ t).mp fires
        exact Bool.false_ne_true (notExec.symm.trans exec)
  refine ⟨others, fun a result => ?_⟩
  rw [s.boundary_eq_act] at result
  have at_s := s.boundary_signalled_get sigs (s.boundaryDues sigs) i t f at_i view
  rw [Trigger.firedAll_of_not_mem i _ t others] at at_s
  obtain ⟨u, n, at_u, view_u, outcome⟩ := State.act_get _ a _ i t f at_s view result
  refine ⟨u, n, at_u, view_u, ?_⟩
  rcases outcome with rfl | ⟨rfl, -⟩
  · exact pending
  · exact f.counted_pending _ pending

/-- What a boundary leaves of an icount trigger that is among its fires: it has fired, and a trap may have counted it after that. -/
theorem State.boundary_fired_get (s a : State) (sigs : List HostItem) (i : Nat) (t : Trigger) (f : Icount)
    (at_i : s.trigs[i]? = some t) (view : t.tdata1.view = .icount f) (fires : boundaryDue i t ∈ s.boundaryDues sigs)
    (result : s.boundary sigs = .go a ∨ s.boundary sigs = .stop a) :
    ∃ (u : Trigger) (n : Icount), a.trigs[i]? = some u ∧ u.tdata1.view = .icount n ∧
      (n = f.fired t.impl ∨
        (n = (f.fired t.impl).counted t.impl ∧ t.impl.countHardwired = false ∧ s.boundary sigs = .stop a)) := by
  rw [s.boundary_eq_act] at result ⊢
  have at_s := s.boundary_signalled_get sigs (s.boundaryDues sigs) i t f at_i view
  obtain ⟨g, view_g, impl, -, fired⟩ := Trigger.firedAll_icount i (s.boundaryDues sigs) t f view
  obtain rfl : g = f.fired t.impl := fired ⟨_, fires, rfl, by rw [boundaryDue, Tdata1.typ, view]; rfl⟩
  obtain ⟨u, n, at_u, view_u, outcome⟩ := State.act_get _ a _ i _ _ at_s view_g result
  refine ⟨u, n, at_u, view_u, outcome.imp_right ?_⟩
  rintro ⟨counted, enabled, stop⟩
  refine ⟨impl ▸ counted, ?_, stop⟩
  by_contra hardwired
  rw [Tdata1.enabledIn, view_g, f.enabledIn_fired_of_hardwired _ (Bool.eq_true_of_not_eq_false hardwired)] at enabled
  cases enabled

/-- Fires of which one has action 1 put the hart into Debug Mode; one with action 0 does so, or makes it take the breakpoint. -/
theorem State.boundary_stops (s a : State) (sigs : List HostItem) (d : Due) (mem : d ∈ s.boundaryDues sigs)
    (result : s.boundary sigs = .go a ∨ s.boundary sigs = .stop a) :
    (d.action = 1 → s.boundary sigs = .stop a ∧ a.mode = .debug) ∧
    (d.action = 0 → s.boundary sigs = .stop a ∧
      (a.mode = .debug ∨ ∃ v, a.trapRegs (s.trapTarget 3) = ⟨s.pc, false, 3, v⟩ ∧ a.mode = (s.trapTarget 3).mode)) := by
  have on := s.boundary_onward sigs
  rw [s.boundary_eq_act] at result ⊢
  rcases result with go | stop
  · obtain ⟨-, signals⟩ := State.act_go _ a _ go
    obtain ⟨notZero, notOne⟩ := signals d mem
    exact ⟨fun one => absurd one notOne, fun zero => absurd zero notZero⟩
  · rcases State.act_stop _ a _ stop with ⟨-, rfl | rfl⟩ | ⟨noOne, -, rfl⟩
    · exact ⟨fun _ => ⟨stop, State.enterDebug_mode _⟩, fun _ => ⟨stop, .inl (State.enterDebug_mode _)⟩⟩
    · exact ⟨fun _ => ⟨stop, State.enterDebug_mode _⟩, fun _ => ⟨stop, .inl (State.enterDebug_mode _)⟩⟩
    · have regs := State.takeBreakpoint_trapRegs ((s.withSignals sigs).signalled (s.boundaryDues sigs)) (s.boundaryDues sigs)
      have mode := State.takeBreakpoint_mode ((s.withSignals sigs).signalled (s.boundaryDues sigs)) (s.boundaryDues sigs)
      rw [on.trapTarget 3] at regs mode
      rw [on.pc] at regs
      exact ⟨fun one => absurd one (noOne d mem), fun _ => ⟨stop, .inr ⟨_, regs, mode⟩⟩⟩

/-- Settles O51: the pending trigger is one of the fires of the boundary, it has fired once the boundary is over, and the
fires' actions decide how the boundary ends. -/
theorem pendingCountFires : Obligations.PendingCountFires := by
  intro s sigs i t f at_i view pending enabled may precise
  refine ⟨fun notExec waits => s.boundary_not_exec sigs i t f at_i view pending notExec waits, fun exec => ?_⟩
  have fires : boundaryDue i t ∈ s.boundaryDues sigs := (s.mem_boundaryDues sigs _).mpr
    (.inr ⟨i, t, at_i, .inr ((s.pendingFires_iff i t).mpr ⟨f, view, pending, exec, enabled, may, .inl precise⟩), rfl⟩)
  have on := s.boundary_onward sigs
  refine ⟨fires, fun debugOnly => ?_, fun a result => ?_⟩
  · rw [s.boundary_eq_act]
    exact State.act_total _ _ (by rw [on.kept.cfg]; exact debugOnly)
  obtain ⟨u, n, at_u, view_u, outcome⟩ := s.boundary_fired_get a sigs i t f at_i view fires result
  obtain ⟨cleared, count, hit⟩ := f.fired_fields t.impl
  obtain ⟨more, outbox⟩ := State.act_outbox _ a _ (by rw [← s.boundary_eq_act sigs]; exact result)
  have counted := (f.fired t.impl).counted_eq t.impl
  rw [State.signalled_outbox, List.append_assoc] at outbox
  refine ⟨u, n, _, at_u, view_u, fun implemented => ?_, fun uncounted => ?_, fun hardwired => ?_, fun counts => ?_, outbox,
    fun g signal => ?_, s.boundary_stops a sigs _ fires result⟩
  · have hit_fired : (f.fired t.impl).hit = true := by rw [hit, implemented, Bool.or_true]
    rcases outcome with rfl | ⟨rfl, -⟩
    · exact hit_fired
    · obtain ⟨c, b, same⟩ := counted
      rw [same]
      exact hit_fired
  · have fired : n = f.fired t.impl := by
      rcases outcome with fired | ⟨counted, notHardwired, stop⟩
      · exact fired
      · rcases uncounted with go | zero | hardwired
        · rw [go] at stop
          cases stop
        · rw [counted, Icount.counted_of_zero _ _ (count.trans zero)]
        · exact absurd hardwired (by rw [notHardwired]; exact Bool.false_ne_true)
    rw [fired]
    exact ⟨cleared, count⟩
  · rcases outcome with rfl | ⟨-, notHardwired, -⟩
    · exact f.fired_of_hardwired t.impl hardwired
    · exact absurd hardwired (by rw [notHardwired]; exact Bool.false_ne_true)
  · rw [f.fired_of_not_hardwired t.impl counts] at outcome counted
    rcases outcome with rfl | ⟨rfl, -⟩
    · exact ⟨rfl, rfl, rfl, rfl, rfl⟩
    · obtain ⟨c, b, same⟩ := counted
      rw [same]
      exact ⟨rfl, rfl, rfl, rfl, rfl⟩
  · exact List.mem_append_left _ (List.mem_filterMap.mpr ⟨_, fires, signal⟩)

end Sys2Proof.Machine
end

section
/-! What a trigger holds after reset (spec/70_reset_and_hazards.md R602 to R604). -/

namespace Sys2Proof.Machine

/-! ### Blank fields -/

theorem blankAction_eq_zero (cfg : Config) (v : ViewImpl) (legal : actionLegal cfg v false 0 = true) : blankAction cfg v = 0 :=
  if_pos legal

/-- Operation 0 is no NAPOT one. -/
theorem blankMatch_eq_zero (v : ViewImpl) (napot : Bool) (legal : matchLegal v napot 0 = true) : blankMatch v napot = 0 := by
  have plain : matchLegal v false 0 = true := by
    simp only [matchLegal, Bool.and_eq_true] at legal ⊢
    exact ⟨legal.1, rfl⟩
  unfold blankMatch
  split
  · exact if_pos plain
  · exact if_pos legal

/-! ### The blank view of each type -/

theorem blankView_mcontrol (cfg : Config) (p : TrigImpl) (n : Nat) (count : BitVec 14) (data : BitVec 59) (f : Mcontrol)
    (blank : blankView cfg p n count data = .mcontrol f) :
    f = { maskmax := p.maskmax, timing := !p.timing0.getLsbD 0, action := BitVec.ofNat 4 (blankAction cfg p.mcontrol),
          matchOp := BitVec.ofNat 4 (blankMatch p.mcontrol (p.maskmax != 0)) } := by
  unfold blankView at blank
  split at blank <;> simp only [View.normal, View.mcontrol.injEq, reduceCtorEq] at blank
  rw [← blank]
  simp [Mcontrol.normal, legalTiming]

theorem blankView_icount (cfg : Config) (p : TrigImpl) (n : Nat) (count : BitVec 14) (data : BitVec 59) (f : Icount)
    (blank : blankView cfg p n count data = .icount f) :
    f = { count := legalCount p count, action := BitVec.ofNat 6 (blankAction cfg p.icount) } := by
  unfold blankView at blank
  split at blank <;> simp only [View.normal, View.icount.injEq, reduceCtorEq] at blank
  rw [← blank]
  simp [Icount.normal]

theorem blankView_itrigger (cfg : Config) (p : TrigImpl) (n : Nat) (count : BitVec 14) (data : BitVec 59) (f : Itrigger)
    (blank : blankView cfg p n count data = .itrigger f) : f = { action := BitVec.ofNat 6 (blankAction cfg p.itrigger) } := by
  unfold blankView at blank
  split at blank <;> simp only [View.normal, View.itrigger.injEq, reduceCtorEq] at blank
  rw [← blank]
  simp [Itrigger.normal]

theorem blankView_etrigger (cfg : Config) (p : TrigImpl) (n : Nat) (count : BitVec 14) (data : BitVec 59) (f : Etrigger)
    (blank : blankView cfg p n count data = .etrigger f) : f = { action := BitVec.ofNat 6 (blankAction cfg p.etrigger) } := by
  unfold blankView at blank
  split at blank <;> simp only [View.normal, View.etrigger.injEq, reduceCtorEq] at blank
  rw [← blank]
  simp [Etrigger.normal]

theorem blankView_mcontrol6 (cfg : Config) (p : TrigImpl) (n : Nat) (count : BitVec 14) (data : BitVec 59) (f : Mcontrol6)
    (blank : blankView cfg p n count data = .mcontrol6 f) :
    f = { action := BitVec.ofNat 4 (blankAction cfg p.mcontrol6),
          matchOp := BitVec.ofNat 4 (blankMatch p.mcontrol6 (p.maskmax6 != 0)) } := by
  unfold blankView at blank
  split at blank <;> simp only [View.normal, View.mcontrol6.injEq, reduceCtorEq] at blank
  rw [← blank]
  simp [Mcontrol6.normal]

theorem blankView_tmext (cfg : Config) (p : TrigImpl) (n : Nat) (count : BitVec 14) (data : BitVec 59) (f : Tmext)
    (blank : blankView cfg p n count data = .tmext f) : f = { action := BitVec.ofNat 6 (blankAction cfg p.tmext) } := by
  unfold blankView at blank
  split at blank <;> simp only [View.normal, View.tmext.injEq, reduceCtorEq] at blank
  rw [← blank]
  simp [Tmext.normal]

/-- An implementation with at least one implemented bit of `count` holds the 1 it resets to (R129, R603). -/
theorem legalCount_one (p : TrigImpl) (count : wfCount p = true) : legalCount p 1 = 1 := by
  simp only [wfCount, Bool.and_eq_true, decide_eq_true_eq] at count
  obtain ⟨atLeast, atMost⟩ := count
  unfold legalCount
  split
  · rfl
  · have all : ∀ k < 15, 1 ≤ k → (1 : BitVec 14) &&& BitVec.ofNat 14 (2 ^ k - 1) = 1 := by decide
    exact all p.countBits (by omega) atLeast

/-- A type with a view is the type of its blank view. -/
theorem blankView_typ_of_has (cfg : Config) (p : TrigImpl) (info : wfInfo p = true) (n : Nat) (has : p.has n = true)
    (count : BitVec 14) (data : BitVec 59) : (blankView cfg p n count data).typ = n := by
  rcases typ_of_has p info n has with rfl | rfl | rfl | rfl | rfl | rfl | rfl <;> rfl

/-! ### The reset state -/

theorem wfResetData_of_wfTrig (cfg : Config) (p : TrigImpl) (impl : wfTrig cfg p = true) : wfResetData cfg p = true := by
  simp only [wfTrig, Bool.and_eq_true, and_assoc] at impl
  obtain ⟨-, -, -, -, -, -, -, -, -, -, -, -, data, -⟩ := impl
  exact data

/-- The constant of a trigger that resets to type 15 is its preset value (R601, R604). -/
theorem normalData_resetData (cfg : Config) (p : TrigImpl) (data : wfResetData cfg p = true) (typ : p.resetType = 15) :
    normalData cfg p p.resetData = p.resetData := by
  have held : heldData p p.resetData = p.resetData := by rw [heldData, if_pos typ, ite_self]
  rw [normalData, held]
  split
  case isTrue narrow =>
    refine setWidth_extractLsb'_of_lt p.resetData ?_
    simpa [wfResetData, narrow] using data
  · rfl

/-- Settles O56: every trigger holds the blank view of its reset type, whose fields are those of R603 and R604. -/
theorem afterResetNothingMatches : Obligations.AfterResetNothingMatches := by
  intro cfg impls t i at_i
  obtain ⟨p, at_p, rfl⟩ : ∃ p, impls[i]? = some p ∧ resetTrigger cfg p = t := by
    simpa [State.resetWith, List.getElem?_map, Option.map_eq_some_iff] using at_i
  refine ⟨blankView_enablesClear _ _ _ _ _, rfl, rfl, rfl, fun impl => ?_, fun f view => ?_, fun f view => ?_, fun f view => ?_,
    fun f view => ?_, fun f view => ?_, fun f view => ?_, at_p, rfl, rfl, rfl, rfl, rfl, rfl, rfl⟩
  · obtain ⟨info, has, -, -⟩ := wfTrig_parts cfg p impl
    refine ⟨blankView_typ_of_has cfg p info _ has _ _, fun typ => ?_⟩
    have blank : (resetTrigger cfg p).tdata1.view = blankView cfg p p.resetType 1 p.resetData := rfl
    have data := normalData_resetData cfg p (wfResetData_of_wfTrig cfg p impl) typ
    rw [blank, show p.resetType = 15 from typ]
    exact congrArg View.disabled data
  · obtain rfl := blankView_mcontrol cfg p _ _ _ f view
    refine ⟨rfl, fun legal => ?_, fun legal => ?_⟩
    · exact congrArg (BitVec.ofNat 4) (blankAction_eq_zero cfg _ legal)
    · exact congrArg (BitVec.ofNat 4) (blankMatch_eq_zero _ _ legal)
  · obtain rfl := blankView_icount cfg p _ _ _ f view
    refine ⟨fun count => ?_, fun legal => ?_⟩
    · rw [legalCount_one p count]
    · exact congrArg (BitVec.ofNat 6) (blankAction_eq_zero cfg _ legal)
  · obtain rfl := blankView_itrigger cfg p _ _ _ f view
    exact ⟨rfl, fun legal => congrArg (BitVec.ofNat 6) (blankAction_eq_zero cfg _ legal)⟩
  · obtain rfl := blankView_etrigger cfg p _ _ _ f view
    exact ⟨rfl, fun legal => congrArg (BitVec.ofNat 6) (blankAction_eq_zero cfg _ legal)⟩
  · obtain rfl := blankView_mcontrol6 cfg p _ _ _ f view
    refine ⟨rfl, fun legal => ?_, fun legal => ?_⟩
    · exact congrArg (BitVec.ofNat 4) (blankAction_eq_zero cfg _ legal)
    · exact congrArg (BitVec.ofNat 4) (blankMatch_eq_zero _ _ legal)
  · obtain rfl := blankView_tmext cfg p _ _ _ f view
    exact ⟨rfl, fun legal => congrArg (BitVec.ofNat 6) (blankAction_eq_zero cfg _ legal)⟩

end Sys2Proof.Machine
end
